-- ==== Sys2Proof/Word.lean ====
section
/-! DEFINITION. The data types of the spec's notation (00_scope.md R10, R13; 10_state.md R20). -/

namespace Sys2Proof

/-- `u4`, one hexadecimal digit (R10). -/
abbrev Nibble := BitVec 4

/-- `u8`, one character code (R10, R13). -/
abbrev Byte := BitVec 8

/-- `u32`, the source's Word32 (R10). -/
abbrev Word32 := BitVec 32

/-- `u64` (R10). -/
abbrev Word64 := BitVec 64

/-- A string: character codes, offset 0 first (R13). -/
abbrev Text := List Byte

/-- A HexBlock on a port or in a register: exactly 16 characters (R13, R82). -/
abbrev HexBlock := Vector Byte 16

/-- A HexKey on a port or in a register: exactly 32 characters (R13, R82). -/
abbrev HexKey := Vector Byte 32

/-- The subkey register file: 44 words, indexed 0 to 43 (R26). -/
abbrev Subkeys := Vector Word32 44

/-- The 6-bit counter `n` and every index formed from it (R29). -/
abbrev Counter := BitVec 6

/-- BlockState: "a pair of Word32 values (left, right)" (R21). -/
structure BlockState where
  left  : Word32
  right : Word32
  deriving DecidableEq, Repr

end Sys2Proof
end

