-- ==== Sys2Proof/Syntax.lean ====
section
/-! DEFINITION. What is encoded in bits at CORE's boundary: the 18 rows of spec/opcode_table.json
(30_encoding.md R87), one constructor each. -/

namespace Sys2Proof

/-- The two commands with their two string operands (format CMD, R81; HEXBLOCK and HEXKEY, R82),
and the sixteen hexadecimal characters (format HEXCHAR, R84). A string may have any length here,
as the transaction-level functions take strings of any length (R241); `WellFormed` checks it. -/
inductive Instr where
  /-- ENCRYPT, `op = 0` (R81, R181). -/
  | encrypt (block key : Text)
  /-- DECRYPT, `op = 1` (R81, R182). -/
  | decrypt (block key : Text)
  /-- The character `0` (R84), and so on to `f`. -/
  | hexChar0
  | hexChar1
  | hexChar2
  | hexChar3
  | hexChar4
  | hexChar5
  | hexChar6
  | hexChar7
  | hexChar8
  | hexChar9
  | hexCharA
  | hexCharB
  | hexCharC
  | hexCharD
  | hexCharE
  | hexCharF
  deriving DecidableEq, Repr

end Sys2Proof
end

