-- ==== Sys2Proof/WellFormed.lean ====
section
/-! DEFINITION. Which instructions a port can carry (30_encoding.md R80, R82): a block of exactly 16
characters and a key of exactly 32. The character codes themselves are not checked here: a port
carries any code, and an illegal one makes the transaction fail (R88), it does not unmake the command. -/

namespace Sys2Proof

/-- HEXBLOCK is 16 characters (R80). -/
def blockLengthOk (block : Text) : Bool := block.length == 16

/-- HEXKEY is 32 characters (R80). -/
def keyLengthOk (key : Text) : Bool := key.length == 32

/-- The check, as a Bool: both operand lengths of a command; a character has no operand. -/
def Instr.wellFormed : Instr → Bool
  | .encrypt block key => blockLengthOk block && keyLengthOk key
  | .decrypt block key => blockLengthOk block && keyLengthOk key
  | .hexChar0 => true
  | .hexChar1 => true
  | .hexChar2 => true
  | .hexChar3 => true
  | .hexChar4 => true
  | .hexChar5 => true
  | .hexChar6 => true
  | .hexChar7 => true
  | .hexChar8 => true
  | .hexChar9 => true
  | .hexCharA => true
  | .hexCharB => true
  | .hexCharC => true
  | .hexCharD => true
  | .hexCharE => true
  | .hexCharF => true

/-- A well-formed instruction is one the ports can carry (R82). -/
abbrev Instr.WellFormed (i : Instr) : Prop := i.wellFormed = true

end Sys2Proof
end

