-- ==== Sys2Proof/Decode.lean ====
section
/-! DEFINITION. The decoder and, after it, the encoder (30_encoding.md R80 to R89).
CORE has one-bit commands and eight-bit characters on separate ports. To number them in one table, the
model lays a command out as one byte that holds `op` in bit 0 and zeros above, then the 16 block
characters, then the 32 key characters, offset 0 first; a character is its one byte (log 6). -/

namespace Sys2Proof

/-- Why bytes are no instruction. -/
inductive DecodeError where
  /-- There is no byte. -/
  | noBytes
  /-- The first byte is neither a command byte nor one of the sixteen character codes (R88). -/
  | illegalCode (code : Byte)
  /-- A command byte with fewer than 48 operand characters after it (R82). -/
  | shortOperands
  deriving DecidableEq, Repr

/-- The number of operand characters of a command: 16 and 32 (R82). -/
def operandChars : Nat := 48

/-- The HEXCHAR rows of the opcode table: character code and instruction (R84, R87). -/
def charRows : List (Byte × Instr) :=
  [(0x30, .hexChar0), (0x31, .hexChar1), (0x32, .hexChar2), (0x33, .hexChar3)] ++
  [(0x34, .hexChar4), (0x35, .hexChar5), (0x36, .hexChar6), (0x37, .hexChar7)] ++
  [(0x38, .hexChar8), (0x39, .hexChar9), (0x61, .hexCharA), (0x62, .hexCharB)] ++
  [(0x63, .hexCharC), (0x64, .hexCharD), (0x65, .hexCharE), (0x66, .hexCharF)]

/-- The row of a code in a list of rows, if there is one. -/
def lookupRow (code : Byte) : List (Byte × Instr) → Option Instr
  | [] => none
  | (row, i) :: rows => if code = row then some i else lookupRow code rows

/-- One character code (R84): the sixteen of the table, and nothing for the other 240 (R88). -/
def decodeChar (code : Byte) : Option Instr := lookupRow code charRows

/-- The command bit a byte carries: `op` in bit 0, zeros above (R81, log 6). -/
def commandBit (b : Byte) : Option (BitVec 1) :=
  if b = 0 then some 0 else if b = 1 then some 1 else none

/-- Format CMD (R81): both values of the bit are commands. -/
def decodeCommand (op : BitVec 1) (block key : Text) : Instr :=
  if op = 0 then .encrypt block key else .decrypt block key

/-- The decoder: the first instruction of a list of bytes and the bytes after it, or why there is none. -/
def decode : List Byte → Except DecodeError (Instr × List Byte)
  | [] => .error .noBytes
  | b :: rest =>
    match commandBit b with
    | some op =>
      if rest.length < operandChars then .error .shortOperands
      else .ok (decodeCommand op (rest.take 16) ((rest.drop 16).take 32), rest.drop operandChars)
    | none =>
      match decodeChar b with
      | some i => .ok (i, rest)
      | none => .error (.illegalCode b)

/-- The byte of a command word (R81, log 6). -/
def encodeOp (op : BitVec 1) : Byte := op.setWidth 8

/-- The encoder: the bytes of an instruction, from the same tables (R81, R82, R84). -/
def encode : Instr → List Byte
  | .encrypt block key => encodeOp 0 :: (block ++ key)
  | .decrypt block key => encodeOp 1 :: (block ++ key)
  | .hexChar0 => [0x30]
  | .hexChar1 => [0x31]
  | .hexChar2 => [0x32]
  | .hexChar3 => [0x33]
  | .hexChar4 => [0x34]
  | .hexChar5 => [0x35]
  | .hexChar6 => [0x36]
  | .hexChar7 => [0x37]
  | .hexChar8 => [0x38]
  | .hexChar9 => [0x39]
  | .hexCharA => [0x61]
  | .hexCharB => [0x62]
  | .hexCharC => [0x63]
  | .hexCharD => [0x64]
  | .hexCharE => [0x65]
  | .hexCharF => [0x66]

/-- The bytes of a table word of `nbits` bits: bits 7..0 first, as the table numbers them, with zeros
above `nbits` up to the longest instruction. -/
def tableBytes (nbits w : Nat) : List Byte :=
  (List.range (operandChars + 1)).map fun k => BitVec.ofNat 8 ((w % 2 ^ nbits) >>> (8 * k))

/-- The instruction the decoder reads from a table word. -/
def decodeTableWord (nbits w : Nat) : Option Instr :=
  match decode (tableBytes nbits w) with
  | .ok (i, _) => some i
  | .error _ => none

end Sys2Proof
end

