-- ==== Sys2Proof/Config.lean ====
section
/-! DEFINITION. The values the spec leaves open. CORE has no configurable parameter (00_scope.md R6);
what is open is what a register holds after a reset step (10_state.md R39, 93_implementation_defined.md U4)
and what a subkey index outside 0..43 would read (20_memory.md R56, which no run from reset forms).
Each is a constant with no body, applied to the draw number of the step that takes it (log 4, log 8).
`STEP_CYCLES` is no constant here: no rule reads it and a model represents no clock cycles (R224, log 2). -/

namespace Sys2Proof

/-- `left` after a reset step (R39). -/
opaque Config.freeLeft : Nat → Word32

/-- `right` after a reset step (R39). -/
opaque Config.freeRight : Nat → Word32

/-- `state64` after a reset step (R39). -/
opaque Config.freeState64 : Nat → Word64

/-- `keyHigh` after a reset step (R39). -/
opaque Config.freeKeyHigh : Nat → Word64

/-- `keyLow` after a reset step (R39). -/
opaque Config.freeKeyLow : Nat → Word64

/-- `z` after a reset step (R39: "`z` is not `Z0` after reset" is not assured either; it is unspecified). -/
opaque Config.freeZ : Nat → Word64

/-- `subkeys[0..43]` after a reset step (R39). -/
opaque Config.freeSubkeys : Nat → Subkeys

/-- `op_r` after a reset step (R39). -/
opaque Config.freeOpR : Nat → BitVec 1

/-- `blk_r` after a reset step (R39). -/
opaque Config.freeBlkR : Nat → HexBlock

/-- `key_r` after a reset step (R39). -/
opaque Config.freeKeyR : Nat → HexKey

/-- `n` after a reset step (R39, R30's last row). -/
opaque Config.freeN : Nat → Counter

/-- `block_out` after a reset step (R39, R272). -/
opaque Config.freeBlockOut : Nat → HexBlock

/-- What reading `subkeys` at an index outside 0..43 gives: no rule says, and no run from reset reads
there (R56). The arguments are the draw number and the index. -/
opaque Config.absentSubkey : Nat → Counter → Word32

end Sys2Proof
end

