-- ==== Sys2Proof/Machine/State.lean ====
section
/-! DEFINITION. The state of one CORE instance (10_state.md R20), the ports the host drives
(44_interface_sequencer.md R200), why a step could stop, and the state right after reset (R39). -/

namespace Sys2Proof.Machine

/-- The sequencer's phase (R28): three accepting phases, and eight busy ones named after the operation
the next step performs. -/
inductive Phase where
  | idle
  | keyDecode
  | keySeed
  | keyExpand
  | blockDecode
  | split
  | round
  | reassemble
  | encode
  | encoded
  | failed
  deriving DecidableEq, Repr

/-- The values on the input ports at one step (R200). The clock is not among them: one model step is
one micro-step (R224, log 2). -/
structure Ports where
  /-- Synchronous reset, active high (R270). -/
  rst     : Bool
  /-- Request to begin a transaction, a level (R201). -/
  start   : Bool
  /-- The command: 0 = ENCRYPT, 1 = DECRYPT (R81). -/
  op      : BitVec 1
  /-- `block_in` (R82). -/
  blockIn : HexBlock
  /-- `key_in` (R82). -/
  keyIn   : HexKey
  deriving DecidableEq, Repr

/-- A fault of the machine. There is none: "no state is stuck, no step faults" (R205); `InvalidInput` is
an ordinary transition to phase FAILED (R205, R243). Nobody raises a fault (log 16). -/
inductive Fault where
  deriving DecidableEq, Repr

/-- Why an instruction has no meaning. By R205 no step is refused. -/
inductive Refusal where
  /-- `exec`, for an instruction of the opcode table the model has no meaning for. Safe. No arm is left so. -/
  | notModelled (mnemonic : String)
  /-- `step`, if the command it fetches did not decode. Safe. It cannot happen: both values of the command
  bit are commands and a port has exactly 16 or 32 characters (R81, R82, R89; log 16). -/
  | undecodable
  deriving DecidableEq, Repr

/-- The state: the registers of R20, the decoder's accumulator, and the ports. -/
structure State where
  /-- One half of the cipher state (R21). -/
  left     : Word32
  /-- The other half (R21). -/
  right    : Word32
  /-- The decoded block, later the reassembled result (R23). -/
  state64  : Word64
  /-- The decoded first 16 key characters (R24). -/
  keyHigh  : Word64
  /-- The decoded last 16 key characters (R24). -/
  keyLow   : Word64
  /-- The remaining constant bit stream (R24). -/
  z        : Word64
  /-- The round subkeys (R26). -/
  subkeys  : Subkeys
  /-- `op_r`, the latched command (R35). -/
  opR      : BitVec 1
  /-- `blk_r`, the latched block string (R35). -/
  blkR     : HexBlock
  /-- `key_r`, the latched key string (R35). -/
  keyR     : HexKey
  /-- The sequencer phase (R28). -/
  phase    : Phase
  /-- Key-expansion index, then count of rounds applied (R29). -/
  n        : Counter
  /-- `block_out`, the result string (R33). -/
  blockOut : HexBlock
  /-- Transaction finished (R31). -/
  done     : Bool
  /-- Transaction failed (R31). -/
  err      : Bool
  /-- The accumulator of `decodeHex` (R132, R136): live inside a decode step only, 0 between steps (log 5). -/
  acc      : Word64
  /-- The input ports as the host drives them at the next step (R200, log 1). -/
  ports    : Ports
  /-- The model's own: what the host drives at the steps after that; when it is empty the ports keep
  their values (log 1). -/
  script   : List Ports
  /-- The model's own: the number of the next draw of free values (log 4). -/
  draw     : Nat
  deriving DecidableEq, Repr

/-- Ports at rest: nothing requested (log 17). -/
def Ports.rest : Ports where
  rst     := false
  start   := false
  op      := 0
  blockIn := Vector.replicate 16 0
  keyIn   := Vector.replicate 32 0

/-- Right after reset: `phase = IDLE`, `done = 0`, `err = 0` (R39, R270). Every other register has an
unspecified value there; the model names 0 for each (log 3) and no statement rests on that. A reset
STEP of the model leaves free values in them instead (`resetRegisters`, log 4). -/
def State.reset : State where
  left     := 0
  right    := 0
  state64  := 0
  keyHigh  := 0
  keyLow   := 0
  z        := 0
  subkeys  := Vector.replicate 44 0
  opR      := 0
  blkR     := Vector.replicate 16 0
  keyR     := Vector.replicate 32 0
  phase    := .idle
  n        := 0
  blockOut := Vector.replicate 16 0
  done     := false
  err      := false
  acc      := 0
  ports    := Ports.rest
  script   := []
  draw     := 0

end Sys2Proof.Machine
end

