-- ==== Sys2Proof/Machine/WordPrimitives.lean ====
section
/-! DEFINITION. The word primitives of 40_word_primitives.md: rotations and byte rearrangement.
AND, OR, XOR and the logical shifts are BitVec's own (R115, R116). -/

namespace Sys2Proof.Machine

/-- A rotation amount: 1 to 31. "A model must give `r` a type that cannot hold 0 or a value of 32 or
more" (R113). -/
abbrev RotAmount := { r : Nat // 1 ≤ r ∧ r ≤ 31 }

/-- `rotateLeft(x, r) = (x << r) OR (x >> (32 - r))` (R111). -/
def rotateLeft (x : Word32) (r : RotAmount) : Word32 :=
  (x <<< r.val) ||| (x >>> (32 - r.val))

/-- `rotateRight(x, r) = (x >> r) OR (x << (32 - r))` (R112). -/
def rotateRight (x : Word32) (r : RotAmount) : Word32 :=
  (x >>> r.val) ||| (x <<< (32 - r.val))

/-- The six wired rotations (00_scope.md R6, R113): left 1, left 2, left 8, right 1, right 3, right 4. -/
def rotl1 (x : Word32) : Word32 := rotateLeft x ⟨1, by decide⟩
def rotl2 (x : Word32) : Word32 := rotateLeft x ⟨2, by decide⟩
def rotl8 (x : Word32) : Word32 := rotateLeft x ⟨8, by decide⟩
def rotr1 (x : Word32) : Word32 := rotateRight x ⟨1, by decide⟩
def rotr3 (x : Word32) : Word32 := rotateRight x ⟨3, by decide⟩
def rotr4 (x : Word32) : Word32 := rotateRight x ⟨4, by decide⟩

/-- Byte `j` of a word, bits `8j+7 .. 8j` (R10). -/
def byteOf (v : Word32) (j : Nat) : Byte := v.extractLsb' (8 * j) 8

/-- `rearrangeBytes(v) = {v[7:0], v[15:8], v[23:16], v[31:24]}` (R114). -/
def rearrangeBytes (v : Word32) : Word32 :=
  byteOf v 0 ++ byteOf v 1 ++ byteOf v 2 ++ byteOf v 3

end Sys2Proof.Machine
end

