-- ==== Sys2Proof/Machine/Operands.lean ====
section
/-! DEFINITION. How the bits at the ports are assembled into operands (30_encoding.md R82, R83, R86;
20_memory.md R53). -/

namespace Sys2Proof.Machine

/-- The high half of a `u64`, bits 63..32 (R53). -/
def highHalf (v : Word64) : Word32 := v.extractLsb' 32 32

/-- The low half of a `u64`, bits 31..0, `trunc32` (R11, R53). -/
def lowHalf (v : Word64) : Word32 := v.setWidth 32

/-- `{left, right} = (zext_64(left) << 32) OR zext_64(right)` (R176). -/
def joinHalves (left right : Word32) : Word64 :=
  (left.setWidth 64 <<< 32) ||| right.setWidth 64

/-- Offsets 0..15 of a key string, the high half (R83). -/
def keyHighText (key : Text) : Text := key.take 16

/-- Offsets 16..31 of a 32-character key string, the low half (R83). -/
def keyLowText (key : Text) : Text := key.drop 16

/-- A string of exactly 16 characters as a block, if it has that length (R82). -/
def toHexBlock (s : Text) : Option HexBlock :=
  if h : s.length = 16 then some ⟨⟨s⟩, h⟩ else none

/-- A string of exactly 32 characters as a key, if it has that length (R82). -/
def toHexKey (s : Text) : Option HexKey :=
  if h : s.length = 32 then some ⟨⟨s⟩, h⟩ else none

/-- A string as the bits of a flat port of `w` bits: offset 0 in the most significant byte (R82). -/
def packText (w : Nat) (s : Text) : BitVec w :=
  s.foldl (fun acc c => (acc <<< 8) ||| c.setWidth w) 0

/-- The `len` characters of a flat port: character `k` at bits `8(len-k)-1 .. 8(len-k)-8` (R82). -/
def unpackText {w : Nat} (len : Nat) (port : BitVec w) : Text :=
  (List.range len).map fun k => port.extractLsb' (8 * (len - 1 - k)) 8

/-- `block_in` as characters, from its 128 bits (R82). -/
def blockOfBits (port : BitVec 128) : HexBlock :=
  ⟨⟨unpackText 16 port⟩, by simp [unpackText]⟩

/-- `key_in` as characters, from its 256 bits (R82). -/
def keyOfBits (port : BitVec 256) : HexKey :=
  ⟨⟨unpackText 32 port⟩, by simp [unpackText]⟩

/-- The input ports from their flat bits (R200). -/
def Ports.ofBits (rst start : Bool) (op : BitVec 1) (blockIn : BitVec 128) (keyIn : BitVec 256) : Ports where
  rst     := rst
  start   := start
  op      := op
  blockIn := blockOfBits blockIn
  keyIn   := keyOfBits keyIn

end Sys2Proof.Machine
end

