-- ==== Sys2Proof/Machine/Flags.lean ====
section
/-! DEFINITION. Status (10_state.md R31 to R33): the two status flags, `busy`, the output ports, and what
a host may take from them. CORE has no arithmetic condition code and no operation has a flag side effect (R31). -/

namespace Sys2Proof.Machine

/-- An accepting phase: IDLE, ENCODED or FAILED (R28, R201). -/
def Phase.accepting : Phase → Bool
  | .idle => true
  | .encoded => true
  | .failed => true
  | .keyDecode => false
  | .keySeed => false
  | .keyExpand => false
  | .blockDecode => false
  | .split => false
  | .round => false
  | .reassemble => false
  | .encode => false

/-- `busy = 1` exactly in the eight busy phases (R32). -/
def State.busy (s : State) : Bool := !s.phase.accepting

/-- Both status flags cleared (R206, R270). -/
def clearFlags (s : State) : State := { s with done := false, err := false }

/-- A transaction ended with a result: `done` set, `err` as it stands (R215). -/
def setDone (s : State) : State := { s with done := true }

/-- A transaction ended with `InvalidInput` (R243). -/
def setFailed (s : State) : State := { s with done := true, err := true }

/-- The output ports (R200). -/
structure Outputs where
  blockOut : BitVec 128
  done     : Bool
  err      : Bool
  busy     : Bool
  deriving DecidableEq, Repr

/-- What the output ports show. Reading them has no effect on CORE (R59). -/
def State.outputs (s : State) : Outputs where
  blockOut := packText 128 s.blockOut.toList
  done     := s.done
  err      := s.err
  busy     := s.busy

/-- What a host may use: the result string while `done = 1` and `err = 0`, and nothing otherwise
(R203, R245, U6, U7; log 13). -/
def State.hostResult (s : State) : Option Text :=
  if s.done && !s.err then some s.blockOut.toList else none

end Sys2Proof.Machine
end

