-- ==== Sys2Proof/Machine/Ops.lean ====
section
/-! DEFINITION. The named operations over the registers. CORE has no memory (20_memory.md R50). -/

namespace Sys2Proof.Machine

/-- Reading `subkeys[i]` (R65). An index outside 0..43 is never formed in a run from reset (R56); what it
would read is a free value (log 8). -/
def readSubkey (i : Counter) (s : State) : Word32 :=
  if h : i.toNat < 44 then s.subkeys[i.toNat] else Config.absentSubkey s.draw i

/-- Writing `subkeys[i]` (R65). There is no register to write outside 0..43 (log 8). -/
def writeSubkey (i : Counter) (v : Word32) (s : State) : State :=
  if h : i.toNat < 44 then { s with subkeys := s.subkeys.set i.toNat v } else s

/-- The decoder starts from zero (R136). -/
def clearAcc (s : State) : State := { s with acc := 0 }

/-- The sequencer moves on (R12: `phase <- P`). -/
def goto (p : Phase) (s : State) : State := { s with phase := p }

/-- THE EXCEPTION (60_exceptions.md R245): `err = 1`, `done = 1`, `phase = FAILED`, and nothing else. Nothing
is saved and control goes nowhere; `block_out` is not written. -/
def raiseInvalidInput (s : State) : State := goto .failed (setFailed s)

/-- ACCEPT (R206): the command and both strings are latched, both flags cleared. There is no return from
the exception (R246); this step, taken from FAILED as from the other accepting phases, is what ends it. -/
def accept (op : BitVec 1) (block : HexBlock) (key : HexKey) (s : State) : State :=
  goto .keyDecode (clearFlags { s with opR := op, blkR := block, keyR := key })

/-- The reset step's effect on the registers (R270): `phase`, `done`, `err` are set and every other
register becomes unspecified, a free value of this draw (log 4). That the accumulator
is zero between steps is the model's choice (log 5). -/
def resetRegisters (s : State) : State :=
  { s with
    left     := Config.freeLeft s.draw
    right    := Config.freeRight s.draw
    state64  := Config.freeState64 s.draw
    keyHigh  := Config.freeKeyHigh s.draw
    keyLow   := Config.freeKeyLow s.draw
    z        := Config.freeZ s.draw
    subkeys  := Config.freeSubkeys s.draw
    opR      := Config.freeOpR s.draw
    blkR     := Config.freeBlkR s.draw
    keyR     := Config.freeKeyR s.draw
    n        := Config.freeN s.draw
    blockOut := Config.freeBlockOut s.draw
    phase    := .idle
    done     := false
    err      := false
    acc      := 0 }

/-- What the ports carry at the next step: the host's next values, or the present ones held (log 1). -/
def nextPorts (ports : Ports) : List Ports → Ports
  | [] => ports
  | p :: _ => p

/-- The end of every step: the host drives its next values and the draw number advances (log 1, log 4).
No register of CORE changes here. -/
def endStep (s : State) : State :=
  { s with ports := nextPorts s.ports s.script, script := s.script.tail, draw := s.draw + 1 }

end Sys2Proof.Machine
end

