-- ==== Sys2Proof/Machine/HexCodec.lean ====
section
/-! DEFINITION. hex_codec (41_hex_codec.md): characters, strings, and the meanings of the sixteen HEXCHAR
rows of the opcode table. A failure `InvalidInput` of a pure function is `none` (60_exceptions.md R242). -/

namespace Sys2Proof.Machine

/-- `hexval(c)` (R130): the nibble of a character code, or invalid. -/
def hexval (c : Byte) : Option Nibble :=
  if 0x30 ≤ c ∧ c ≤ 0x39 then some ((c - 0x30).setWidth 4)
  else if 0x61 ≤ c ∧ c ≤ 0x66 then some ((c - 0x61 + 10).setWidth 4)
  else none

/-- `valid(c)` (R130). -/
def validChar (c : Byte) : Bool := (hexval c).isSome

/-- `hexchar(v)` (R131). -/
def hexchar (v : Nibble) : Byte :=
  if v ≤ 9 then 0x30 + v.setWidth 8 else 0x61 + (v.setWidth 8 - 10)

/-- `validHex(s, L)` (R137). -/
def validHex (s : Text) (len : Nat) : Bool := s.length == len && s.all validChar

/-- One turn of the decode loop: `acc <- (acc << 4) OR zext_64(v)` (R132). -/
def accumulate (acc : Word64) (v : Nibble) : Word64 := (acc <<< 4) ||| v.setWidth 64

/-- The decode loop, offset 0 first; an invalid character anywhere gives no value at all (R132). -/
def decodeFrom : Word64 → Text → Option Word64
  | acc, [] => some acc
  | acc, c :: cs =>
    match hexval c with
    | some v => decodeFrom (accumulate acc v) cs
    | none => none

/-- `decodeHex(s)` (R132): the accumulator starts from zero (R136). -/
def decodeHex (s : Text) : Option Word64 :=
  if s.length = 16 then decodeFrom 0 s else none

/-- `decodeHexKeyLow(s)` (R133). -/
def decodeHexKeyLow (s : Text) : Option Word64 :=
  if s.length = 32 then decodeHex (keyLowText s) else none

/-- `decodeHexKeyHigh(s)` (R97), which R97 defines for a 32-character `s` only. DESIGN CHOICE (log 19): on any
other length the model decodes the first 16 characters, and there is no value where there are fewer. -/
def decodeHexKeyHigh (s : Text) : Option Word64 := decodeHex (keyHighText s)

/-- `v[63-4k : 60-4k]` (R134). -/
def nibbleOf (v : Word64) (k : Nat) : Nibble := v.extractLsb' (60 - 4 * k) 4

/-- `encodeHex(v)` (R134): sixteen lowercase characters, most significant nibble first. -/
def encodeHex (v : Word64) : Text := (List.range 16).map fun k => hexchar (nibbleOf v k)

/-- `encodeHex(v)` as a block for the port (R82, R134). -/
def encodeBlock (v : Word64) : HexBlock := ⟨⟨encodeHex v⟩, by simp [encodeHex]⟩

/-- One character through the decoder of the machine: the accumulator takes its nibble (R132). -/
def takeNibble (v : Nibble) (s : State) : State := { s with acc := accumulate s.acc v }

/-- The characters of a string through the decoder, one after another, or nothing if one is invalid.
Running the HEXCHAR instructions of the string in order does the same (Laws/Codec.lean). -/
def feedText (text : Text) (s : State) : Option State :=
  (decodeFrom s.acc text).map fun acc => { s with acc := acc }

/-- A string decoded from zero (R136); the value is left in the accumulator. -/
def decodeText (text : Text) (s : State) : Option State := feedText text (clearAcc s)

/-- HEXCHAR_0 to HEXCHAR_f: the character's turn of the decode loop (R84, R130, R132; log 5). -/
def execHexChar0 (s : State) : Host.Outcome State Fault Refusal := .next (takeNibble 0 s)
def execHexChar1 (s : State) : Host.Outcome State Fault Refusal := .next (takeNibble 1 s)
def execHexChar2 (s : State) : Host.Outcome State Fault Refusal := .next (takeNibble 2 s)
def execHexChar3 (s : State) : Host.Outcome State Fault Refusal := .next (takeNibble 3 s)
def execHexChar4 (s : State) : Host.Outcome State Fault Refusal := .next (takeNibble 4 s)
def execHexChar5 (s : State) : Host.Outcome State Fault Refusal := .next (takeNibble 5 s)
def execHexChar6 (s : State) : Host.Outcome State Fault Refusal := .next (takeNibble 6 s)
def execHexChar7 (s : State) : Host.Outcome State Fault Refusal := .next (takeNibble 7 s)
def execHexChar8 (s : State) : Host.Outcome State Fault Refusal := .next (takeNibble 8 s)
def execHexChar9 (s : State) : Host.Outcome State Fault Refusal := .next (takeNibble 9 s)
def execHexCharA (s : State) : Host.Outcome State Fault Refusal := .next (takeNibble 10 s)
def execHexCharB (s : State) : Host.Outcome State Fault Refusal := .next (takeNibble 11 s)
def execHexCharC (s : State) : Host.Outcome State Fault Refusal := .next (takeNibble 12 s)
def execHexCharD (s : State) : Host.Outcome State Fault Refusal := .next (takeNibble 13 s)
def execHexCharE (s : State) : Host.Outcome State Fault Refusal := .next (takeNibble 14 s)
def execHexCharF (s : State) : Host.Outcome State Fault Refusal := .next (takeNibble 15 s)

end Sys2Proof.Machine
end

