-- ==== Sys2Proof/Machine/KeySchedule.lean ====
section
/-! DEFINITION. key_schedule_expander (42_key_schedule.md): the pure schedule, and the micro-steps
KEY_DECODE, KEY_SEED and KEY_EXPAND (44_interface_sequencer.md R207 to R209). -/

namespace Sys2Proof.Machine

/-- `Z0`, the value loaded into `z` (R6, R25, R153). -/
def constZ0 : Word64 := 0xfc2ce51207a635db

/-- `C`, the mask constant of the recurrence (R6, R25, R153). -/
def constC : Word32 := 0xfffffffc

/-- `zext_32(z[0])` (R116, R153). -/
def zBit (z : Word64) : Word32 := (z.extractLsb' 0 1).setWidth 32

/-- The recurrence of R153: the new subkey from `z` and the subkeys 4, 3 and 1 places before it. -/
def nextSubkey (z : Word64) (back4 back3 back1 : Word32) : Word32 :=
  constC ^^^ zBit z ^^^ back4 ^^^ rotr3 back1 ^^^ back3 ^^^ rotr4 back1 ^^^ rotr1 back3

/-- Four subkeys in a row, `subkeys[i]` to `subkeys[i+3]`. -/
structure Window where
  k0 : Word32
  k1 : Word32
  k2 : Word32
  k3 : Word32
  deriving DecidableEq, Repr

/-- One place further: `subkeys[i+4]` comes in by the recurrence (R153). -/
def Window.advance (z : Word64) (w : Window) : Window :=
  ⟨w.k1, w.k2, w.k3, nextSubkey z w.k0 w.k1 w.k3⟩

/-- The subkeys from a window on: its four, after `more` turns of the loop, `z` shifted right once in
each turn (R153). -/
def expandFrom : Nat → Word64 → Window → List Word32
  | 0, _, w => [w.k0, w.k1, w.k2, w.k3]
  | more + 1, z, w => w.k0 :: expandFrom more (z >>> 1) (w.advance z)

/-- Seeding (R152): the four halves, most significant first, each through `rearrangeBytes`. -/
def seedWindow (keyHigh keyLow : Word64) : Window where
  k0 := rearrangeBytes (highHalf keyHigh)
  k1 := rearrangeBytes (lowHalf keyHigh)
  k2 := rearrangeBytes (highHalf keyLow)
  k3 := rearrangeBytes (lowHalf keyLow)

/-- Key decode (R151): `keyHigh` and `keyLow`, or `InvalidInput`. -/
def decodeKey (key : Text) : Option (Word64 × Word64) :=
  match decodeHexKeyHigh key, decodeHexKeyLow key with
  | some high, some low => some (high, low)
  | _, _ => none

/-- The schedule of two key halves: four seeds and 40 derived subkeys (R152, R153). -/
def scheduleOf (keyHigh keyLow : Word64) : List Word32 :=
  expandFrom 40 constZ0 (seedWindow keyHigh keyLow)

/-- `keySchedule(key)` (R155): the 44 subkeys, or `InvalidInput` from the key decode only. -/
def keySchedule (key : Text) : Option (List Word32) :=
  (decodeKey key).map fun halves => scheduleOf halves.1 halves.2

/-- KEY_DECODE (R207). Both halves are decoded before either register is written: on an invalid
character `keyHigh` and `keyLow` are not written. -/
def keyDecode (s : State) : State :=
  match decodeText (keyHighText s.keyR.toList) s with
  | none => raiseInvalidInput s
  | some high =>
    match decodeText (keyLowText s.keyR.toList) { high with keyHigh := high.acc } with
    | none => raiseInvalidInput s
    | some low => goto .keySeed (clearAcc { low with keyLow := low.acc })

/-- KEY_SEED (R208). -/
def keySeed (s : State) : State :=
  let w := seedWindow s.keyHigh s.keyLow
  let s := writeSubkey 3 w.k3 (writeSubkey 2 w.k2 (writeSubkey 1 w.k1 (writeSubkey 0 w.k0 s)))
  goto .keyExpand { s with z := constZ0, n := 4 }

/-- KEY_EXPAND (R209), `n` being the value before the step. -/
def keyExpand (s : State) : State :=
  let k := nextSubkey s.z (readSubkey (s.n - 4) s) (readSubkey (s.n - 3) s) (readSubkey (s.n - 1) s)
  goto (if s.n = 43 then .blockDecode else .keyExpand)
    { writeSubkey s.n k s with z := s.z >>> 1, n := s.n + 1 }

end Sys2Proof.Machine
end

