-- ==== Sys2Proof/Machine/RoundEngine.lean ====
section
/-! DEFINITION. feistel_round_engine (43_round_engine.md): the round function, splits, rounds and
reassembly, and the micro-steps BLOCK_DECODE to ENCODE (44_interface_sequencer.md R210 to R215). -/

namespace Sys2Proof.Machine

/-- `f(x) = (rotateLeft(x,1) AND rotateLeft(x,8)) XOR rotateLeft(x,2)` (R170). -/
def roundF (x : Word32) : Word32 := (rotl1 x &&& rotl8 x) ^^^ rotl2 x

/-- ENCRYPT split (R172): `right` takes the high half, `left` the low half, both rearranged. -/
def splitForEncrypt (state : Word64) : BlockState where
  right := rearrangeBytes (highHalf state)
  left  := rearrangeBytes (lowHalf state)

/-- DECRYPT split (R173): `left` takes the high half, `right` the low half, no rearrangement. -/
def splitForDecrypt (state : Word64) : BlockState where
  right := lowHalf state
  left  := highHalf state

/-- Encryption round (R174), one simultaneous update (R282). -/
def encryptRound (b : BlockState) (k : Word32) : BlockState :=
  ⟨b.right ^^^ roundF b.left ^^^ k, b.left⟩

/-- Decryption round (R175), one simultaneous update (R282). -/
def decryptRound (b : BlockState) (k : Word32) : BlockState :=
  ⟨b.right, b.left ^^^ roundF b.right ^^^ k⟩

/-- Reassembly (R176), the same for both commands. -/
def reassembleHalves (b : BlockState) : Word64 := joinHalves b.left b.right

/-- The BlockState as the two registers hold it (R21). -/
def State.blockState (s : State) : BlockState := ⟨s.left, s.right⟩

/-- Writing both registers at once (R21, R282). -/
def setBlockState (b : BlockState) (s : State) : State := { s with left := b.left, right := b.right }

/-- BLOCK_DECODE (R210). -/
def blockDecode (s : State) : State :=
  match decodeText s.blkR.toList s with
  | none => raiseInvalidInput s
  | some d => goto .split (clearAcc { d with state64 := d.acc })

/-- SPLIT (R211), with the form of the command. -/
def splitWith (form : Word64 → BlockState) (s : State) : State :=
  goto .round { setBlockState (form s.state64) s with n := 0 }

/-- ROUND (R212, R213), with the form of the command and the index of the subkey it uses; `n` is the value
before the step. -/
def roundWith (form : BlockState → Word32 → BlockState) (index : Counter) (s : State) : State :=
  goto (if s.n = 43 then .reassemble else .round)
    { setBlockState (form s.blockState (readSubkey index s)) s with n := s.n + 1 }

/-- SPLIT, ENCRYPT form (R211, R172). -/
def splitEncrypt (s : State) : State := splitWith splitForEncrypt s

/-- SPLIT, DECRYPT form (R211, R173). -/
def splitDecrypt (s : State) : State := splitWith splitForDecrypt s

/-- ROUND, ENCRYPT form (R212): subkey `n`. -/
def roundEncrypt (s : State) : State := roundWith encryptRound s.n s

/-- ROUND, DECRYPT form (R213): subkey `43 - n`. -/
def roundDecrypt (s : State) : State := roundWith decryptRound (43 - s.n) s

/-- REASSEMBLE (R214). -/
def reassemble (s : State) : State :=
  goto .encode { s with state64 := reassembleHalves s.blockState }

/-- ENCODE (R215): all 16 characters in one step. -/
def encodeResult (s : State) : State :=
  goto .encoded (setDone { s with blockOut := encodeBlock s.state64 })

end Sys2Proof.Machine
end

