-- ==== Sys2Proof/Machine/Commands.lean ====
section
/-! DEFINITION. The two commands: whole, as functions on strings (43_round_engine.md R181, R182), and as
the meanings of the two CMD rows of the opcode table, one micro-step of the command at a time
(44_interface_sequencer.md R205 to R215; log 10). -/

namespace Sys2Proof.Machine

/-- ENCRYPT(block, key) (R181): subkeys 0 up to 43. -/
def encryptText (block key : Text) : Option Text :=
  match keySchedule key, decodeHex block with
  | some subkeys, some state =>
    some (encodeHex (reassembleHalves (subkeys.foldl encryptRound (splitForEncrypt state))))
  | _, _ => none

/-- DECRYPT(block, key) (R182): subkeys 43 down to 0. -/
def decryptText (block key : Text) : Option Text :=
  match keySchedule key, decodeHex block with
  | some subkeys, some state =>
    some (encodeHex (reassembleHalves (subkeys.reverse.foldl decryptRound (splitForDecrypt state))))
  | _, _ => none

/-- The command of a command bit as a function (R81, R218's `T`). -/
def commandText (op : BitVec 1) (block key : Text) : Option Text :=
  if op = 0 then encryptText block key else decryptText block key

/-- ACCEPT of a command with its two strings (R206). Strings no port can carry are `InvalidInput` at once
(R241; log 9). -/
def acceptCommand (op : BitVec 1) (block key : Text) (s : State) : State :=
  match toHexBlock block, toHexKey key with
  | some b, some k => accept op b k s
  | _, _ => raiseInvalidInput s

/-- The micro-step of a command that the phase selects (R205). The command gives its bit, its strings and
its forms of SPLIT and ROUND (R62); the other steps are the same for both. -/
def commandStep (op : BitVec 1) (split round : State → State) (block key : Text) (s : State) : State :=
  match s.phase with
  | .idle        => acceptCommand op block key s
  | .encoded     => acceptCommand op block key s
  | .failed      => acceptCommand op block key s
  | .keyDecode   => keyDecode s
  | .keySeed     => keySeed s
  | .keyExpand   => keyExpand s
  | .blockDecode => blockDecode s
  | .split       => split s
  | .round       => round s
  | .reassemble  => reassemble s
  | .encode      => encodeResult s

/-- ENCRYPT (R181): its micro-step at the state's phase. -/
def execEncrypt (block key : Text) (s : State) : Host.Outcome State Fault Refusal :=
  .next (commandStep 0 splitEncrypt roundEncrypt block key s)

/-- DECRYPT (R182): its micro-step at the state's phase. -/
def execDecrypt (block key : Text) (s : State) : Host.Outcome State Fault Refusal :=
  .next (commandStep 1 splitDecrypt roundDecrypt block key s)

end Sys2Proof.Machine
end

