-- ==== Sys2Proof/Machine/Dispatch.lean ====
section
/-! DEFINITION. One arm per row of the opcode table (30_encoding.md R87). -/

namespace Sys2Proof.Machine

def exec (i : Instr) (s : State) : Host.Outcome State Fault Refusal :=
  match i with
  | .encrypt block key => Sys2Proof.Machine.execEncrypt block key s
  | .decrypt block key => Sys2Proof.Machine.execDecrypt block key s
  | .hexChar0 => Sys2Proof.Machine.execHexChar0 s
  | .hexChar1 => Sys2Proof.Machine.execHexChar1 s
  | .hexChar2 => Sys2Proof.Machine.execHexChar2 s
  | .hexChar3 => Sys2Proof.Machine.execHexChar3 s
  | .hexChar4 => Sys2Proof.Machine.execHexChar4 s
  | .hexChar5 => Sys2Proof.Machine.execHexChar5 s
  | .hexChar6 => Sys2Proof.Machine.execHexChar6 s
  | .hexChar7 => Sys2Proof.Machine.execHexChar7 s
  | .hexChar8 => Sys2Proof.Machine.execHexChar8 s
  | .hexChar9 => Sys2Proof.Machine.execHexChar9 s
  | .hexCharA => Sys2Proof.Machine.execHexCharA s
  | .hexCharB => Sys2Proof.Machine.execHexCharB s
  | .hexCharC => Sys2Proof.Machine.execHexCharC s
  | .hexCharD => Sys2Proof.Machine.execHexCharD s
  | .hexCharE => Sys2Proof.Machine.execHexCharE s
  | .hexCharF => Sys2Proof.Machine.execHexCharF s

end Sys2Proof.Machine
end

