-- ==== Sys2Proof/Machine/Fetch.lean ====
section
/-! DEFINITION. Where a step finds its command, and where a table word is placed so that the next step
runs it. CORE has no program counter and no fetch (10_state.md R28, 20_memory.md R62): in an accepting phase
the command is on the ports, in a busy phase it is the latched one (R35, R202; log 10). -/

namespace Sys2Proof.Machine

/-- The bytes of the command on the ports (R200, in the layout of log 6). -/
def portBytes (p : Ports) : List Byte := encodeOp p.op :: (p.blockIn.toList ++ p.keyIn.toList)

/-- The bytes of the latched command (R35). -/
def latchedBytes (s : State) : List Byte := encodeOp s.opR :: (s.blkR.toList ++ s.keyR.toList)

/-- The bytes of the command the next step works on. -/
def fetchBytes (s : State) : List Byte :=
  if s.phase.accepting then portBytes s.ports else latchedBytes s

/-- The command the next step works on. -/
def fetchCommand (s : State) : Except DecodeError Instr :=
  match decode (fetchBytes s) with
  | .ok (i, _) => .ok i
  | .error e => .error e

/-- The `k`-th of some characters, 0 where there is none. -/
def charAt (bytes : List Byte) (k : Nat) : Byte := (bytes[k]?).getD 0

/-- Sixteen characters from an offset on. -/
def blockAt (bytes : List Byte) (from0 : Nat) : HexBlock :=
  ⟨⟨(List.range 16).map fun k => charAt bytes (from0 + k)⟩, by simp⟩

/-- Thirty-two characters from an offset on. -/
def keyAt (bytes : List Byte) (from0 : Nat) : HexKey :=
  ⟨⟨(List.range 32).map fun k => charAt bytes (from0 + k)⟩, by simp⟩

/-- A command byte and its operands go on the ports, with `start = 1` and `rst = 0`; a busy sequencer is
taken to IDLE, where a command can be accepted (R201, R206; log 7). -/
def placeCommand (op : BitVec 1) (bytes : List Byte) (s : State) : State :=
  { s with
    ports := { rst := false, start := true, op := op, blockIn := blockAt bytes 1, keyIn := keyAt bytes 17 }
    phase := if s.phase.accepting then s.phase else .idle }

/-- Fifteen leading `0` and the character: as a string, the character alone. Leading zeros leave the
decoder's zero accumulator as it is (R132, R136; log 7). -/
def charBlock (c : Byte) : HexBlock := ⟨⟨List.replicate 15 0x30 ++ [c]⟩, by simp⟩

/-- A character goes into the latched block, and the sequencer to BLOCK_DECODE, the step that decodes it
(R210; log 7). -/
def placeChar (c : Byte) (s : State) : State :=
  { s with ports := { s.ports with rst := false }, blkR := charBlock c, phase := .blockDecode }

/-- A table word placed where the next step finds it. -/
def placeWord (nbits w : Nat) (s : State) : State :=
  let bytes := tableBytes nbits w
  match commandBit (charAt bytes 0) with
  | some op => placeCommand op bytes s
  | none => placeChar (charAt bytes 0) s

end Sys2Proof.Machine
end

