-- ==== Sys2Proof/Machine/Sequence.lean ====
section
/-! DEFINITION. Which rule applies at a step (44_interface_sequencer.md R205): reset, hold, or the micro-step
of a command. -/

namespace Sys2Proof.Machine

/-- After an instruction, the end of the step; a stop stays a stop. -/
def finishStep : Host.Outcome State Fault Refusal → Host.Outcome State Fault Refusal
  | .next s => .next (endStep s)
  | .fault r => .fault r
  | .refused r => .refused r

/-- `rst` first (R270); then, in an accepting phase with `start = 0`, hold (R216); otherwise the step of the
command on the ports (accepting phase, R206) or of the latched command (busy phase, R207 to R215). -/
def sequencerStep (s : State) : Host.Outcome State Fault Refusal :=
  if s.ports.rst then .next (endStep (resetRegisters s))
  else if s.phase.accepting && !s.ports.start then .next (endStep s)
  else
    match fetchCommand s with
    | .ok i => finishStep (exec i s)
    | .error _ => .refused .undecodable

end Sys2Proof.Machine
end

