-- ==== Sys2Proof/Machine/Step.lean ====
section
/-! DEFINITION. One micro-step of CORE (44_interface_sequencer.md R205). -/

namespace Sys2Proof.Machine

/-- The step of the machine (R205). -/
def step (s : State) : Host.Outcome State Fault Refusal := sequencerStep s

/-- The state with a table word placed so that the next step runs it (log 7). -/
def State.withFetchWord (s : State) (nbits w : Nat) : State := placeWord nbits w s

end Sys2Proof.Machine
end

