-- ==== Sys2Proof/Safety.lean ====
section
/-! DEFINITION. What counts as a safe run, in the terms the statements use: the invariants of the
sequencer and of the datapath, runs of the machine, and the spec's `bswap64` (00_scope.md glossary). -/

namespace Sys2Proof.Machine

/-- `done = 1` exactly when `phase` is ENCODED or FAILED; `err = 1` exactly when `phase = FAILED` (R31). -/
def FlagsAgree (s : State) : Prop :=
  (s.done = true ↔ s.phase = .encoded ∨ s.phase = .failed) ∧ (s.err = true ↔ s.phase = .failed)

/-- KEY_EXPAND runs only with `4 <= n <= 43` and ROUND only with `0 <= n <= 43` (R56). -/
def CounterInRange (s : State) : Prop :=
  (s.phase = .keyExpand → 4 ≤ s.n.toNat ∧ s.n.toNat ≤ 43) ∧ (s.phase = .round → s.n.toNat ≤ 43)

/-- The decoder's accumulator is zero between steps: the model's choice (DESIGN CHOICE, log 5). -/
def AccumulatorAtRest (s : State) : Prop := s.acc = 0

/-- The control invariant: flags (R31), counter (R56), and the accumulator at rest (log 5). -/
def ControlInv (s : State) : Prop := FlagsAgree s ∧ CounterInRange s ∧ AccumulatorAtRest s

/-- The BlockState after `m` rounds of a command on a decoded block (R174, R175, R178). -/
def roundsDone (op : BitVec 1) (subkeys : List Word32) (m : Nat) (state : Word64) : BlockState :=
  if op = 0 then (subkeys.take m).foldl encryptRound (splitForEncrypt state)
  else (subkeys.reverse.take m).foldl decryptRound (splitForDecrypt state)

/-- The datapath agrees with the latched command at every phase (R41, R218): what each register that a
later step of the transaction reads holds, as a function of `op_r`, `blk_r`, `key_r`; and in ENCODED and
FAILED, the outcome of the command. -/
def Coherent (s : State) : Prop :=
  match s.phase with
  | .idle => True
  | .keyDecode => True
  | .keySeed => decodeKey s.keyR.toList = some (s.keyHigh, s.keyLow)
  | .keyExpand =>
      4 ≤ s.n.toNat ∧ s.n.toNat ≤ 43 ∧ s.z = constZ0 >>> (s.n.toNat - 4) ∧
      ∃ ks, keySchedule s.keyR.toList = some ks ∧ s.subkeys.toList.take s.n.toNat = ks.take s.n.toNat
  | .blockDecode => keySchedule s.keyR.toList = some s.subkeys.toList
  | .split =>
      keySchedule s.keyR.toList = some s.subkeys.toList ∧ decodeHex s.blkR.toList = some s.state64
  | .round =>
      s.n.toNat ≤ 43 ∧ keySchedule s.keyR.toList = some s.subkeys.toList ∧
      ∃ state, decodeHex s.blkR.toList = some state ∧
        s.blockState = roundsDone s.opR s.subkeys.toList s.n.toNat state
  | .reassemble =>
      commandText s.opR s.blkR.toList s.keyR.toList = some (encodeHex (reassembleHalves s.blockState))
  | .encode => commandText s.opR s.blkR.toList s.keyR.toList = some (encodeHex s.state64)
  | .encoded => commandText s.opR s.blkR.toList s.keyR.toList = some s.blockOut.toList
  | .failed => commandText s.opR s.blkR.toList s.keyR.toList = none

/-- `k` steps of the machine, through the host's interface. -/
def runFor (k : Nat) (s : State) : Host.Outcome State Fault Refusal := Host.Core.run Sys2Proof.core k s

/-- The host keeps `rst = 0` from this step on (R218). -/
def NoReset (s : State) : Prop := s.ports.rst = false ∧ ∀ p ∈ s.script, p.rst = false

/-- A transaction is requested and can be accepted at this step (R201, R218). -/
def Requested (s : State) : Prop := s.phase.accepting = true ∧ s.ports.start = true ∧ NoReset s

/-- A string with its 2-character groups in reverse order: `bswap64` on a string (00_scope.md glossary). -/
def bswapText : Text → Text
  | a :: b :: rest => bswapText rest ++ [a, b]
  | rest => rest

/-- A valid HexBlock string (R13, R137). -/
abbrev ValidBlock (s : Text) : Prop := validHex s 16 = true

/-- A valid HexKey string (R13, R137). -/
abbrev ValidKey (s : Text) : Prop := validHex s 32 = true

/-- Running characters as instructions, one `exec` after another. -/
def runAll : List Instr → State → Host.Outcome State Fault Refusal
  | [], s => .next s
  | i :: rest, s =>
    match exec i s with
    | .next t => runAll rest t
    | .fault r => .fault r
    | .refused r => .refused r

/-- The instructions of a string of characters, if every one of them is a legal code (R84, R88). -/
def charsOf : Text → Option (List Instr)
  | [] => some []
  | c :: cs =>
    match decodeChar c, charsOf cs with
    | some i, some rest => some (i :: rest)
    | _, _ => none

end Sys2Proof.Machine
end

