-- ==== Sys2Proof/Certificates/Slice0/Obligations.lean ====
section
/-! DEFINITION. The statements about the model, from the numbered rules of spec/. OBLIGATIONS.json lists
them with their rules. An instruction list `[.encrypt block key, .decrypt block key]` makes a statement
about both commands, for every operand. Results are given as whole states, so each says its frame too:
a field that is not named keeps its value. -/

open Sys2Proof Sys2Proof.Machine

/-! ### Encoding (30_encoding.md) -/

/-- For every well-formed instruction: the decoder reads its bytes back to it, whatever follows (R80 to R84). -/
def Obligations.EncodedInstructionDecodesBack : Prop :=
  ∀ (i : Instr) (rest : List Byte), i.WellFormed → decode (encode i ++ rest) = .ok (i, rest)

/-- What the decoder reads is well formed, and its encoding is exactly the bytes read: each word has one
meaning (R80 to R84, R88). -/
def Obligations.DecodedBytesAreTheEncoding : Prop :=
  ∀ (bytes : List Byte) (i : Instr) (rest : List Byte),
    decode bytes = .ok (i, rest) → i.WellFormed ∧ encode i ++ rest = bytes

/-- Words of the opcode table, written out from R81 and R84, decode to their rows. -/
def Obligations.TableWordsDecodeToTheirRows : Prop :=
  decodeTableWord 8 0b00000000 = some (.encrypt (List.replicate 16 0) (List.replicate 32 0)) ∧
  decodeTableWord 8 0b00000001 = some (.decrypt (List.replicate 16 0) (List.replicate 32 0)) ∧
  decodeTableWord 8 0b00110000 = some .hexChar0 ∧
  decodeTableWord 8 0b00111001 = some .hexChar9 ∧
  decodeTableWord 8 0b01100001 = some .hexCharA ∧
  decodeTableWord 8 0b01100110 = some .hexCharF ∧
  decodeTableWord 8 0b01000001 = none

/-- A flat string port: character `k` of `L` at bits `8(L-k)-1 .. 8(L-k)-8`, for the block ports (128 bits)
and the key port (256 bits), and the characters of a port's bits are the characters packed (R82). -/
def Obligations.PortBitsOfStrings : Prop :=
  (∀ (b : HexBlock) (k : Fin 16), (packText 128 b.toList).extractLsb' (120 - 8 * k.val) 8 = b[k]) ∧
  (∀ (b : HexKey) (k : Fin 32), (packText 256 b.toList).extractLsb' (248 - 8 * k.val) 8 = b[k]) ∧
  (∀ b : HexBlock, blockOfBits (packText 128 b.toList) = b) ∧
  (∀ b : HexKey, keyOfBits (packText 256 b.toList) = b)

/-! ### Word primitives (40_word_primitives.md) -/

/-- Both rotations move every bit to its place, for every amount 1 to 31 (R111, R112). -/
def Obligations.RotationsMoveEveryBit : Prop :=
  ∀ (x : Word32) (r : RotAmount) (j : Nat), j < 32 →
    (rotateLeft x r).getLsbD ((j + r.val) % 32) = x.getLsbD j ∧
    (rotateRight x r).getLsbD ((j + 32 - r.val) % 32) = x.getLsbD j

/-- `rotateRight(x, r) = rotateLeft(x, 32 - r)` and rotating right and left by the same amount gives `x`
back, for every amount 1 to 31 (R112). -/
def Obligations.RotationsAreInverse : Prop :=
  ∀ (x : Word32) (r q : RotAmount), q.val = 32 - r.val →
    rotateRight x r = rotateLeft x q ∧ rotateLeft (rotateRight x r) r = x

/-- `rearrangeBytes` puts byte `j` at byte `3 - j`, and is its own inverse (R114). -/
def Obligations.RearrangeBytesReversesTheBytes : Prop :=
  ∀ v : Word32, (∀ j : Nat, j < 4 → byteOf (rearrangeBytes v) j = byteOf v (3 - j)) ∧
    rearrangeBytes (rearrangeBytes v) = v

/-- Bit `j` of `f(x)` is `(x[(j-1) mod 32] AND x[(j-8) mod 32]) XOR x[(j-2) mod 32]`, and `f` commutes with
rotation (R170). -/
def Obligations.RoundFunctionBitByBit : Prop :=
  ∀ x : Word32,
    (∀ j : Nat, j < 32 → (roundF x).getLsbD j =
      ((x.getLsbD ((j + 31) % 32) && x.getLsbD ((j + 24) % 32)) ^^ x.getLsbD ((j + 30) % 32))) ∧
    ∀ r : RotAmount, roundF (rotateLeft x r) = rotateLeft (roundF x) r

/-! ### Codec (41_hex_codec.md) -/

/-- `validHex(s, L)` means what R137 says; `decodeHex(s)` succeeds exactly when `validHex(s, 16)`; the key
decode succeeds exactly when `validHex(key, 32)` (R137). -/
def Obligations.DecodeSucceedsExactlyOnValidHex : Prop :=
  (∀ (s : Text) (len : Nat), validHex s len = true ↔
    s.length = len ∧ ∀ (k : Nat) (h : k < s.length), validChar s[k] = true) ∧
  (∀ s : Text, (decodeHex s).isSome = validHex s 16) ∧
  (∀ key : Text, (decodeKey key).isSome = validHex key 32)

/-- Bits `63-4k .. 60-4k` of a decoded value are the digit of the character at offset `k` (R132). -/
def Obligations.DecodedNibbleIsItsCharacter : Prop :=
  ∀ (s : Text) (v : Word64), decodeHex s = some v →
    ∀ k : Nat, k < 16 → (s[k]?).bind hexval = some (v.extractLsb' (60 - 4 * k) 4)

/-- "for all u64 `v`, `decodeHex(encodeHex(v)) == v`", and for every string of 16 valid characters
`encodeHex(decodeHex(s)) = s` (R135). -/
def Obligations.CodecRoundTrip : Prop :=
  (∀ v : Word64, decodeHex (encodeHex v) = some v) ∧
  (∀ s : Text, ValidBlock s → ∃ v, decodeHex s = some v ∧ encodeHex v = s)

/-- A character code decodes to an instruction exactly when it has a digit value; `hexchar` gives the code
of every digit, and a valid code is the `hexchar` of its digit (R84, R88, R130, R131). -/
def Obligations.CharacterTableReadBothWays : Prop :=
  ∀ c : Byte,
    ((decodeChar c).isSome = true ↔ (0x30 ≤ c ∧ c ≤ 0x39) ∨ (0x61 ≤ c ∧ c ≤ 0x66)) ∧
    ((decodeChar c).isSome = (hexval c).isSome) ∧
    ∀ v : Nibble, hexval c = some v ↔ hexchar v = c

/-- The byte-stream view of R55: byte `j` of a string (its characters `2j` and `2j+1`) is byte `7-j` of the
decoded word; ENCRYPT and the key seeds read each four bytes with the first least significant, DECRYPT with
the first most significant, and the output words are written most significant byte first. -/
def Obligations.ByteStreamView : Prop :=
  (∀ (s : Text) (v : Word64), decodeHex s = some v → ∀ j : Nat, j < 8 →
    ∃ a b : Nibble, (s[2 * j]?).bind hexval = some a ∧ (s[2 * j + 1]?).bind hexval = some b ∧
      a ++ b = v.extractLsb' (56 - 8 * j) 8) ∧
  (∀ (high low : Word64), ∀ j : Nat, j < 4 →
    byteOf (seedWindow high low).k0 j = high.extractLsb' (56 - 8 * j) 8 ∧
    byteOf (seedWindow high low).k1 j = high.extractLsb' (24 - 8 * j) 8 ∧
    byteOf (seedWindow high low).k2 j = low.extractLsb' (56 - 8 * j) 8 ∧
    byteOf (seedWindow high low).k3 j = low.extractLsb' (24 - 8 * j) 8) ∧
  (∀ v : Word64, ∀ j : Nat, j < 4 →
    byteOf (splitForEncrypt v).right j = v.extractLsb' (56 - 8 * j) 8 ∧
    byteOf (splitForEncrypt v).left j = v.extractLsb' (24 - 8 * j) 8 ∧
    byteOf (splitForDecrypt v).left (3 - j) = v.extractLsb' (56 - 8 * j) 8 ∧
    byteOf (splitForDecrypt v).right (3 - j) = v.extractLsb' (24 - 8 * j) 8) ∧
  (∀ b : BlockState, ∀ j : Nat, j < 4 →
    (reassembleHalves b).extractLsb' (56 - 8 * j) 8 = byteOf b.left (3 - j) ∧
    (reassembleHalves b).extractLsb' (24 - 8 * j) 8 = byteOf b.right (3 - j))

/-! ### Key schedule (42_key_schedule.md) -/

/-- The schedule of a key: 44 subkeys; the four seeds are the rearranged halves; every later one is the
recurrence, with bit `i-4` of `Z0` (R152 to R156). -/
def Obligations.ScheduleSatisfiesTheRecurrence : Prop :=
  ∀ (key : Text) (high low : Word64), decodeKey key = some (high, low) →
    ∃ ks : List Word32, keySchedule key = some ks ∧ ks.length = 44 ∧
      ks.take 4 = [rearrangeBytes (high.extractLsb' 32 32), rearrangeBytes (high.extractLsb' 0 32),
        rearrangeBytes (low.extractLsb' 32 32), rearrangeBytes (low.extractLsb' 0 32)] ∧
      ∀ i : Nat, 4 ≤ i → i < 44 →
        ks.getD i 0 =
          0xfffffffc ^^^ (BitVec.ofBool ((0xfc2ce51207a635db : Word64).getLsbD (i - 4))).setWidth 32 ^^^
            ks.getD (i - 4) 0 ^^^ rotr3 (ks.getD (i - 1) 0) ^^^ ks.getD (i - 3) 0 ^^^
            rotr4 (ks.getD (i - 1) 0) ^^^ rotr1 (ks.getD (i - 3) 0)

/-- Any four consecutive subkeys determine all the others, and the key: distinct keys give distinct
sequences (R157). -/
def Obligations.FourSubkeysDetermineTheKey : Prop :=
  ∀ (key key' : Text) (ks ks' : List Word32) (i : Nat),
    keySchedule key = some ks → keySchedule key' = some ks' → i ≤ 40 →
    (ks.drop i).take 4 = (ks'.drop i).take 4 → ks = ks' ∧ key = key'

/-! ### The round engine and the two commands as functions (43_round_engine.md) -/

/-- A decryption round undoes the encryption round with the same subkey, and the other way round; so do
whole sequences of rounds taken in the opposite order (R177). -/
def Obligations.RoundsUndoEachOther : Prop :=
  (∀ (b : BlockState) (k : Word32), decryptRound (encryptRound b k) k = b) ∧
  (∀ (b : BlockState) (k : Word32), encryptRound (decryptRound b k) k = b) ∧
  (∀ (ks : List Word32) (b : BlockState), ks.reverse.foldl decryptRound (ks.foldl encryptRound b) = b) ∧
  (∀ (ks : List Word32) (b : BlockState), ks.foldl encryptRound (ks.reverse.foldl decryptRound b) = b)

/-- A command fails exactly when one of its strings is not a valid hex string of its length; a result is
always a valid block (R181, R182, R240). -/
def Obligations.CommandFailsExactlyOnInvalidStrings : Prop :=
  ∀ (op : BitVec 1) (block key : Text),
    (commandText op block key = none ↔ ¬ (ValidBlock block ∧ ValidKey key)) ∧
    ∀ out, commandText op block key = some out → ValidBlock out

/-- `DECRYPT(ENCRYPT(P, K), K) = bswap64(P)`, which is `P` exactly for blocks whose eight bytes read the
same in both directions (R185). -/
def Obligations.DecryptOfEncryptIsTheByteReversal : Prop :=
  ∀ P K : Text, ValidBlock P → ValidKey K →
    ∃ E, encryptText P K = some E ∧ decryptText E K = some (bswapText P) ∧
      (decryptText E K = some P ↔ bswapText P = P)

/-- `ENCRYPT(bswap64(DECRYPT(C, K)), K) = C` (R186). -/
def Obligations.EncryptOfReversedDecryptIsTheBlock : Prop :=
  ∀ C K : Text, ValidBlock C → ValidKey K →
    ∃ D, decryptText C K = some D ∧ encryptText (bswapText D) K = some C

/-- For a fixed valid key each command is a bijection of the valid blocks: every valid block has a valid
result, and every valid block is the result of exactly one valid block (R188). -/
def Obligations.CommandsAreBijections : Prop :=
  ∀ (op : BitVec 1) (K : Text), ValidKey K →
    (∀ P : Text, ValidBlock P → ∃ E, commandText op P K = some E ∧ ValidBlock E) ∧
    ∀ E : Text, ValidBlock E →
      ∃ P, (ValidBlock P ∧ commandText op P K = some E) ∧
        ∀ Q, ValidBlock Q → commandText op Q K = some E → Q = P

/-! ### The meanings of the opcode table's rows -/

/-- Every HEXCHAR row takes its digit into the accumulator of the decode loop, in every state, and
changes nothing else (R84, R130, R132; that the accumulator is a field is log 5). -/
def Obligations.HexCharsShiftTheirDigitIn : Prop :=
  ∀ s : State,
    exec .hexChar0 s = .next { s with acc := (s.acc <<< 4) ||| 0 } ∧
    exec .hexChar1 s = .next { s with acc := (s.acc <<< 4) ||| 1 } ∧
    exec .hexChar2 s = .next { s with acc := (s.acc <<< 4) ||| 2 } ∧
    exec .hexChar3 s = .next { s with acc := (s.acc <<< 4) ||| 3 } ∧
    exec .hexChar4 s = .next { s with acc := (s.acc <<< 4) ||| 4 } ∧
    exec .hexChar5 s = .next { s with acc := (s.acc <<< 4) ||| 5 } ∧
    exec .hexChar6 s = .next { s with acc := (s.acc <<< 4) ||| 6 } ∧
    exec .hexChar7 s = .next { s with acc := (s.acc <<< 4) ||| 7 } ∧
    exec .hexChar8 s = .next { s with acc := (s.acc <<< 4) ||| 8 } ∧
    exec .hexChar9 s = .next { s with acc := (s.acc <<< 4) ||| 9 } ∧
    exec .hexCharA s = .next { s with acc := (s.acc <<< 4) ||| 10 } ∧
    exec .hexCharB s = .next { s with acc := (s.acc <<< 4) ||| 11 } ∧
    exec .hexCharC s = .next { s with acc := (s.acc <<< 4) ||| 12 } ∧
    exec .hexCharD s = .next { s with acc := (s.acc <<< 4) ||| 13 } ∧
    exec .hexCharE s = .next { s with acc := (s.acc <<< 4) ||| 14 } ∧
    exec .hexCharF s = .next { s with acc := (s.acc <<< 4) ||| 15 }

/-- ACCEPT: from every accepting phase a command with strings a port can carry is latched (R206). -/
def Obligations.CommandsAreAccepted : Prop :=
  ∀ (block : HexBlock) (key : HexKey) (s : State), s.phase = .idle ∨ s.phase = .encoded ∨ s.phase = .failed →
    exec (.encrypt block.toList key.toList) s = .next { s with
      opR := 0, blkR := block, keyR := key, done := false, err := false, phase := .keyDecode } ∧
    exec (.decrypt block.toList key.toList) s = .next { s with
      opR := 1, blkR := block, keyR := key, done := false, err := false, phase := .keyDecode }

/-- A command with a string of the wrong length, which no port can carry, is `InvalidInput` (R241; that it
is so at once is the model's choice, log 9). -/
def Obligations.WrongLengthIsInvalidInput : Prop :=
  ∀ (block key : Text) (s : State), s.phase = .idle ∨ s.phase = .encoded ∨ s.phase = .failed →
    block.length ≠ 16 ∨ key.length ≠ 32 →
    ∀ i ∈ [Instr.encrypt block key, .decrypt block key],
      exec i s = .next { s with done := true, err := true, phase := .failed }

/-- KEY_DECODE (R207): on a valid key both registers are written; on an invalid one neither, and the step is
`InvalidInput`. The accumulator is at rest after a decode (log 5). -/
def Obligations.KeyDecodeStep : Prop :=
  ∀ (block key : Text) (s : State), s.phase = .keyDecode →
    ∀ i ∈ [Instr.encrypt block key, .decrypt block key],
      (validHex s.keyR.toList 32 = true →
        ∃ high low, decodeHex (s.keyR.toList.take 16) = some high ∧
          decodeHexKeyLow s.keyR.toList = some low ∧
          exec i s = .next { s with keyHigh := high, keyLow := low, acc := 0, phase := .keySeed }) ∧
      (validHex s.keyR.toList 32 = false →
        exec i s = .next { s with err := true, done := true, phase := .failed })

/-- KEY_SEED (R208). -/
def Obligations.KeySeedStep : Prop :=
  ∀ (block key : Text) (s : State), s.phase = .keySeed →
    ∀ i ∈ [Instr.encrypt block key, .decrypt block key],
      exec i s = .next { s with
        subkeys :=
          (((s.subkeys.set 0 (rearrangeBytes (s.keyHigh.extractLsb' 32 32))).set 1
            (rearrangeBytes (s.keyHigh.extractLsb' 0 32))).set 2
            (rearrangeBytes (s.keyLow.extractLsb' 32 32))).set 3
            (rearrangeBytes (s.keyLow.extractLsb' 0 32))
        z := 0xfc2ce51207a635db, n := 4, phase := .keyExpand }

/-- KEY_EXPAND (R209), for every value of `n` the phase runs with. -/
def Obligations.KeyExpandStep : Prop :=
  ∀ (block key : Text) (s : State) (m : Nat) (low : 4 ≤ m) (high : m < 44),
    s.phase = .keyExpand → s.n.toNat = m →
    ∀ i ∈ [Instr.encrypt block key, .decrypt block key],
      exec i s = .next { s with
        subkeys := s.subkeys.set m
          (0xfffffffc ^^^ (s.z.extractLsb' 0 1).setWidth 32 ^^^ s.subkeys[m - 4] ^^^
            rotr3 s.subkeys[m - 1] ^^^ s.subkeys[m - 3] ^^^ rotr4 s.subkeys[m - 1] ^^^
            rotr1 s.subkeys[m - 3])
        z := s.z >>> 1, n := s.n + 1
        phase := if m = 43 then .blockDecode else .keyExpand }

/-- BLOCK_DECODE (R210). The accumulator is at rest after a decode (log 5). -/
def Obligations.BlockDecodeStep : Prop :=
  ∀ (block key : Text) (s : State), s.phase = .blockDecode →
    ∀ i ∈ [Instr.encrypt block key, .decrypt block key],
      (validHex s.blkR.toList 16 = true →
        ∃ v, decodeHex s.blkR.toList = some v ∧
          exec i s = .next { s with state64 := v, acc := 0, phase := .split }) ∧
      (validHex s.blkR.toList 16 = false →
        exec i s = .next { s with err := true, done := true, phase := .failed })

/-- SPLIT, both forms (R211, R172, R173). -/
def Obligations.SplitStep : Prop :=
  ∀ (block key : Text) (s : State), s.phase = .split →
    exec (.encrypt block key) s = .next { s with
      right := rearrangeBytes (s.state64.extractLsb' 32 32)
      left := rearrangeBytes (s.state64.extractLsb' 0 32), n := 0, phase := .round } ∧
    exec (.decrypt block key) s = .next { s with
      right := s.state64.extractLsb' 0 32
      left := s.state64.extractLsb' 32 32, n := 0, phase := .round }

/-- ROUND, both forms, for every value of `n` the phase runs with (R212, R213, R174, R175). -/
def Obligations.RoundStep : Prop :=
  ∀ (block key : Text) (s : State) (m : Nat) (high : m < 44), s.phase = .round → s.n.toNat = m →
    exec (.encrypt block key) s = .next { s with
      left := s.right ^^^ roundF s.left ^^^ s.subkeys[m]
      right := s.left, n := s.n + 1, phase := if m = 43 then .reassemble else .round } ∧
    exec (.decrypt block key) s = .next { s with
      right := s.left ^^^ roundF s.right ^^^ s.subkeys[43 - m]
      left := s.right, n := s.n + 1, phase := if m = 43 then .reassemble else .round }

/-- REASSEMBLE (R214): `{left, right}`. -/
def Obligations.ReassembleStep : Prop :=
  ∀ (block key : Text) (s : State), s.phase = .reassemble →
    ∀ i ∈ [Instr.encrypt block key, .decrypt block key],
      exec i s = .next { s with state64 := s.left ++ s.right, phase := .encode }

/-- ENCODE (R215): all sixteen characters, each the `hexchar` of its digit (R134). -/
def Obligations.EncodeStep : Prop :=
  ∀ (block key : Text) (s : State), s.phase = .encode →
    ∀ i ∈ [Instr.encrypt block key, .decrypt block key],
      exec i s = .next { s with
        blockOut := Vector.ofFn fun k : Fin 16 => hexchar (s.state64.extractLsb' (60 - 4 * k.val) 4)
        done := true, phase := .encoded }

/-! ### The step (44_interface_sequencer.md, 70_reset_and_hazards.md) -/

/-- The rules of the sequencer as steps: with `rst = 0`, under each rule's condition, the step is the
rule's effect on the registers and then the end of the step (R206 to R216; the host's next port values and
the draw number at the end are log 1 and log 4; the accumulator is at rest after a decode, log 5). -/
def Obligations.StepRelation : Prop :=
  ∀ s : State, s.ports.rst = false →
    (s.phase.accepting = true → s.ports.start = true →
      step s = .next (endStep { s with
        opR := s.ports.op, blkR := s.ports.blockIn, keyR := s.ports.keyIn
        done := false, err := false, phase := .keyDecode })) ∧
    (s.phase = .keyDecode → validHex s.keyR.toList 32 = true →
      ∃ high low, decodeHex (s.keyR.toList.take 16) = some high ∧
        decodeHexKeyLow s.keyR.toList = some low ∧
        step s = .next (endStep { s with keyHigh := high, keyLow := low, acc := 0, phase := .keySeed })) ∧
    (s.phase = .keyDecode → validHex s.keyR.toList 32 = false →
      step s = .next (endStep { s with err := true, done := true, phase := .failed })) ∧
    (s.phase = .keySeed →
      step s = .next (endStep { s with
        subkeys :=
          (((s.subkeys.set 0 (rearrangeBytes (s.keyHigh.extractLsb' 32 32))).set 1
            (rearrangeBytes (s.keyHigh.extractLsb' 0 32))).set 2
            (rearrangeBytes (s.keyLow.extractLsb' 32 32))).set 3
            (rearrangeBytes (s.keyLow.extractLsb' 0 32))
        z := 0xfc2ce51207a635db, n := 4, phase := .keyExpand })) ∧
    (∀ (m : Nat) (low : 4 ≤ m) (high : m < 44), s.phase = .keyExpand → s.n.toNat = m →
      step s = .next (endStep { s with
        subkeys := s.subkeys.set m
          (0xfffffffc ^^^ (s.z.extractLsb' 0 1).setWidth 32 ^^^ s.subkeys[m - 4] ^^^
            rotr3 s.subkeys[m - 1] ^^^ s.subkeys[m - 3] ^^^ rotr4 s.subkeys[m - 1] ^^^
            rotr1 s.subkeys[m - 3])
        z := s.z >>> 1, n := s.n + 1
        phase := if m = 43 then .blockDecode else .keyExpand })) ∧
    (s.phase = .blockDecode → validHex s.blkR.toList 16 = true →
      ∃ v, decodeHex s.blkR.toList = some v ∧
        step s = .next (endStep { s with state64 := v, acc := 0, phase := .split })) ∧
    (s.phase = .blockDecode → validHex s.blkR.toList 16 = false →
      step s = .next (endStep { s with err := true, done := true, phase := .failed })) ∧
    (s.phase = .split → s.opR = 0 →
      step s = .next (endStep { s with
        right := rearrangeBytes (s.state64.extractLsb' 32 32)
        left := rearrangeBytes (s.state64.extractLsb' 0 32), n := 0, phase := .round })) ∧
    (s.phase = .split → s.opR = 1 →
      step s = .next (endStep { s with
        right := s.state64.extractLsb' 0 32
        left := s.state64.extractLsb' 32 32, n := 0, phase := .round })) ∧
    (∀ (m : Nat) (high : m < 44), s.phase = .round → s.opR = 0 → s.n.toNat = m →
      step s = .next (endStep { s with
        left := s.right ^^^ roundF s.left ^^^ s.subkeys[m]
        right := s.left, n := s.n + 1, phase := if m = 43 then .reassemble else .round })) ∧
    (∀ (m : Nat) (high : m < 44), s.phase = .round → s.opR = 1 → s.n.toNat = m →
      step s = .next (endStep { s with
        right := s.left ^^^ roundF s.right ^^^ s.subkeys[43 - m]
        left := s.right, n := s.n + 1, phase := if m = 43 then .reassemble else .round })) ∧
    (s.phase = .reassemble →
      step s = .next (endStep { s with state64 := s.left ++ s.right, phase := .encode })) ∧
    (s.phase = .encode →
      step s = .next (endStep { s with
        blockOut := Vector.ofFn fun k : Fin 16 => hexchar (s.state64.extractLsb' (60 - 4 * k.val) 4)
        done := true, phase := .encoded })) ∧
    (s.phase.accepting = true → s.ports.start = false → step s = .next (endStep s))

/-- When the bytes of the command on the ports (accepting phase, with `start = 1`) or of the latched command
(busy phase) decode to an instruction, the step is that instruction's `exec`, then the end of the step
(the host's next port values and the draw number; log 1, log 4, log 10). -/
def Obligations.StepRunsTheFetchedCommand : Prop :=
  ∀ (s t : State) (i : Instr), s.ports.rst = false →
    (s.phase.accepting = true → s.ports.start = true) →
    decode (if s.phase.accepting = true
        then encodeOp s.ports.op :: (s.ports.blockIn.toList ++ s.ports.keyIn.toList)
        else encodeOp s.opR :: (s.blkR.toList ++ s.keyR.toList)) = .ok (i, []) →
    exec i s = .next t →
    step s = .next { t with
      ports := nextPorts t.ports t.script, script := t.script.tail, draw := t.draw + 1 }

/-- The two decode steps run the HEXCHAR instructions of their strings in order, from a zero accumulator,
and take its value (R132, R136, R207, R210; log 5). -/
def Obligations.DecodeStepsRunTheirCharacters : Prop :=
  (∀ (s : State) (chars : List Instr), s.ports.rst = false → s.phase = .blockDecode →
    charsOf s.blkR.toList = some chars →
    ∃ t, runAll chars { s with acc := 0 } = .next t ∧
      step s = .next (endStep { t with state64 := t.acc, acc := 0, phase := .split })) ∧
  (∀ (s : State) (first last : List Instr), s.ports.rst = false → s.phase = .keyDecode →
    charsOf (s.keyR.toList.take 16) = some first → charsOf (s.keyR.toList.drop 16) = some last →
    ∃ t u, runAll first { s with acc := 0 } = .next t ∧
      runAll last { t with keyHigh := t.acc, acc := 0 } = .next u ∧
      step s = .next (endStep { u with keyLow := u.acc, acc := 0, phase := .keySeed }))

/-- A table word placed by `withFetchWord` is what the next step runs: a command is accepted; a character
is decoded, from a zero accumulator, by the step that decodes it (log 7). -/
def Obligations.PlacedWordIsRunNext : Prop :=
  (∀ (s : State) (w : Nat), w < 2 → ∃ i t, decodeTableWord 8 w = some i ∧
    exec i (s.withFetchWord 8 w) = .next t ∧ step (s.withFetchWord 8 w) = .next (endStep t)) ∧
  (∀ (s : State) (c : Byte) (i : Instr), decodeChar c = some i → decodeTableWord 8 c.toNat = some i ∧
    ∃ t, exec i { s.withFetchWord 8 c.toNat with acc := 0 } = .next t ∧
      step (s.withFetchWord 8 c.toNat) =
        .next (endStep { t with state64 := t.acc, acc := 0, phase := .split }))

/-- The step is total: no state is stuck, no step faults, no step is refused, and no instruction is (R205). -/
def Obligations.NothingFaultsOrIsRefused : Prop :=
  (∀ s : State, ∃ t, step s = .next t) ∧ (∀ (i : Instr) (s : State), ∃ t, exec i s = .next t)

/-- Reset (R270): from every state and whatever `start` is, `phase`, `done`, `err` are set, `busy = 0`, and
every other register takes a free value (R39; log 4). -/
def Obligations.ResetStep : Prop :=
  ∀ s : State, s.ports.rst = true →
    ∃ t, step s = .next t ∧ t.phase = .idle ∧ t.done = false ∧ t.err = false ∧ t.busy = false ∧
      t = endStep { s with
        phase := .idle, done := false, err := false, acc := 0
        left := Config.freeLeft s.draw, right := Config.freeRight s.draw
        state64 := Config.freeState64 s.draw, keyHigh := Config.freeKeyHigh s.draw
        keyLow := Config.freeKeyLow s.draw, z := Config.freeZ s.draw
        subkeys := Config.freeSubkeys s.draw, opR := Config.freeOpR s.draw
        blkR := Config.freeBlkR s.draw, keyR := Config.freeKeyR s.draw
        n := Config.freeN s.draw, blockOut := Config.freeBlockOut s.draw }

/-- Hold (R216): with `start = 0` and `rst = 0` CORE stays in an accepting phase for any number of steps and
no register changes. -/
def Obligations.HoldForAnyNumberOfSteps : Prop :=
  ∀ (k : Nat) (s : State), s.phase.accepting = true → s.ports.start = false → s.ports.rst = false →
    (∀ p ∈ s.script, p.start = false ∧ p.rst = false) →
    ∃ t, runFor k s = .next t ∧
      { t with ports := s.ports, script := s.script, draw := s.draw } = s

/-- The table of how each step advances (`phase`, `n`) (R30), with `rst = 0`. -/
def Obligations.PhaseTable : Prop :=
  ∀ s t : State, s.ports.rst = false → step s = .next t →
    (s.phase.accepting = true → s.ports.start = false → t.phase = s.phase ∧ t.n = s.n) ∧
    (s.phase.accepting = true → s.ports.start = true → t.phase = .keyDecode ∧ t.n = s.n) ∧
    (s.phase = .keyDecode → validHex s.keyR.toList 32 = true → t.phase = .keySeed ∧ t.n = s.n) ∧
    (s.phase = .keyDecode → validHex s.keyR.toList 32 = false → t.phase = .failed ∧ t.n = s.n) ∧
    (s.phase = .keySeed → t.phase = .keyExpand ∧ t.n = 4) ∧
    (s.phase = .keyExpand → s.n < 43 → t.phase = .keyExpand ∧ t.n = s.n + 1) ∧
    (s.phase = .keyExpand → s.n = 43 → t.phase = .blockDecode ∧ t.n = 44) ∧
    (s.phase = .blockDecode → validHex s.blkR.toList 16 = true → t.phase = .split ∧ t.n = s.n) ∧
    (s.phase = .blockDecode → validHex s.blkR.toList 16 = false → t.phase = .failed ∧ t.n = s.n) ∧
    (s.phase = .split → t.phase = .round ∧ t.n = 0) ∧
    (s.phase = .round → s.n < 43 → t.phase = .round ∧ t.n = s.n + 1) ∧
    (s.phase = .round → s.n = 43 → t.phase = .reassemble ∧ t.n = 44) ∧
    (s.phase = .reassemble → t.phase = .encode ∧ t.n = s.n) ∧
    (s.phase = .encode → t.phase = .encoded ∧ t.n = s.n)

/-- In a busy phase a step reads no input port but `rst`: with any other values on the ports and any other
plan of the host, the registers after the step are the same (R202, R217). -/
def Obligations.InputsAreIgnoredWhileBusy : Prop :=
  ∀ (s : State) (p : Ports) (script : List Ports), s.busy = true → s.ports.rst = false → p.rst = false →
    ∃ t u, step s = .next t ∧ step { s with ports := p, script := script } = .next u ∧
      { u with ports := t.ports, script := t.script } = t

/-- Which steps write which register (R20's column "written by"; R26, R33, R35): with `rst = 0`, a register
whose value changes is at a step the table names for it. -/
def Obligations.RegistersAreWrittenByTheirStepsOnly : Prop :=
  ∀ s t : State, s.ports.rst = false → step s = .next t →
    (t.left ≠ s.left → s.phase = .split ∨ s.phase = .round) ∧
    (t.right ≠ s.right → s.phase = .split ∨ s.phase = .round) ∧
    (t.state64 ≠ s.state64 → s.phase = .blockDecode ∨ s.phase = .reassemble) ∧
    (t.keyHigh ≠ s.keyHigh → s.phase = .keyDecode) ∧
    (t.keyLow ≠ s.keyLow → s.phase = .keyDecode) ∧
    (t.z ≠ s.z → s.phase = .keySeed ∨ s.phase = .keyExpand) ∧
    (∀ (j : Nat) (h : j < 44), t.subkeys[j] ≠ s.subkeys[j] →
      (s.phase = .keySeed ∧ j < 4) ∨ (s.phase = .keyExpand ∧ j = s.n.toNat)) ∧
    (t.opR ≠ s.opR → s.phase.accepting = true ∧ s.ports.start = true) ∧
    (t.blkR ≠ s.blkR → s.phase.accepting = true ∧ s.ports.start = true) ∧
    (t.keyR ≠ s.keyR → s.phase.accepting = true ∧ s.ports.start = true) ∧
    (t.n ≠ s.n → s.phase = .keySeed ∨ s.phase = .keyExpand ∨ s.phase = .split ∨ s.phase = .round) ∧
    (t.blockOut ≠ s.blockOut → s.phase = .encode) ∧
    (t.done ≠ s.done → (s.phase.accepting = true ∧ s.ports.start = true) ∨ s.phase = .encode ∨
      s.phase = .keyDecode ∨ s.phase = .blockDecode) ∧
    (t.err ≠ s.err → (s.phase.accepting = true ∧ s.ports.start = true) ∨
      s.phase = .keyDecode ∨ s.phase = .blockDecode)

/-- Exactly two steps raise `InvalidInput`: KEY_DECODE when `key_r` has an invalid character, BLOCK_DECODE
when `blk_r` has one; both set `err` and `done` and go to FAILED, and change nothing else (R243, R245). -/
def Obligations.OnlyTheDecodeStepsFail : Prop :=
  ∀ s t : State, s.ports.rst = false → step s = .next t →
    ((s.phase ≠ .failed ∧ t.phase = .failed) ↔
      (s.phase = .keyDecode ∧ ∃ c ∈ s.keyR.toList, validChar c = false) ∨
      (s.phase = .blockDecode ∧ ∃ c ∈ s.blkR.toList, validChar c = false)) ∧
    (s.phase ≠ .failed → t.phase = .failed →
      t = endStep { s with err := true, done := true, phase := .failed })

/-! ### Invariants -/

/-- Right after reset: IDLE, both flags clear, not busy (R39), and both invariants hold. The clause of the
control invariant that the accumulator is 0 is the model's choice (log 5), not a rule's. -/
def Obligations.InvariantsHoldAtReset : Prop :=
  State.reset.phase = .idle ∧ State.reset.done = false ∧ State.reset.err = false ∧
    State.reset.busy = false ∧ ControlInv State.reset ∧ Coherent State.reset

/-- Every step keeps: `done = 1` exactly in ENCODED and FAILED, `err = 1` exactly in FAILED (R31); `n` in the
range its phase runs with (R56). That the accumulator is 0 between steps is kept too; that clause is the
model's choice (log 5), not a rule's. -/
def Obligations.EveryStepKeepsTheControlInvariant : Prop :=
  ∀ s t : State, ControlInv s → step s = .next t → ControlInv t

/-- Every step, reset steps among them, keeps the datapath in agreement with the latched command: the
subkeys written so far are the schedule of `key_r`, the BlockState is that of the rounds done on `blk_r`,
and in ENCODED and FAILED the outcome is the command's (R41, R218). -/
def Obligations.EveryStepKeepsTheDatapathCoherent : Prop :=
  ∀ s t : State, Coherent s → step s = .next t → Coherent t

/-! ### Whole transactions (R218) -/

/-- If the command has a result `R`, then after exactly 91 steps `phase = ENCODED`, `done = 1`, `err = 0`,
`block_out = R`; after each of the 90 steps before, `busy = 1` and `done = 0`; whatever the registers held
and whatever the ports carry afterwards with `rst = 0` (R218 a). -/
def Obligations.SuccessfulTransactionTakes91Steps : Prop :=
  ∀ (s : State) (R : Text), Requested s →
    commandText s.ports.op s.ports.blockIn.toList s.ports.keyIn.toList = some R →
    (∃ t, runFor 91 s = .next t ∧ t.phase = .encoded ∧ t.done = true ∧ t.err = false ∧
      t.blockOut.toList = R) ∧
    ∀ k : Nat, 1 ≤ k → k ≤ 90 → ∃ t, runFor k s = .next t ∧ t.busy = true ∧ t.done = false

/-- If the key is not valid, then after exactly 2 steps `phase = FAILED`, `done = 1`, `err = 1`, and
`block_out` is unchanged, for either command and any block (R218 b, R244). -/
def Obligations.BadKeyFailsAfter2Steps : Prop :=
  ∀ s : State, Requested s → ¬ ValidKey s.ports.keyIn.toList →
    (∃ t, runFor 2 s = .next t ∧ t.phase = .failed ∧ t.done = true ∧ t.err = true ∧
      t.blockOut = s.blockOut) ∧
    ∃ t, runFor 1 s = .next t ∧ t.busy = true ∧ t.done = false

/-- If the key is valid and the block is not, the same after exactly 44 steps (R218 c). -/
def Obligations.BadBlockFailsAfter44Steps : Prop :=
  ∀ s : State, Requested s → ValidKey s.ports.keyIn.toList → ¬ ValidBlock s.ports.blockIn.toList →
    (∃ t, runFor 44 s = .next t ∧ t.phase = .failed ∧ t.done = true ∧ t.err = true ∧
      t.blockOut = s.blockOut) ∧
    ∀ k : Nat, 1 ≤ k → k ≤ 43 → ∃ t, runFor k s = .next t ∧ t.busy = true ∧ t.done = false

/-- What a successful transaction leaves in the registers no port shows: nothing is cleared (R40). -/
def Obligations.RegistersAfterASuccessfulTransaction : Prop :=
  ∀ s : State, Requested s → ValidBlock s.ports.blockIn.toList → ValidKey s.ports.keyIn.toList →
    ∃ t, runFor 91 s = .next t ∧ t.opR = s.ports.op ∧ t.blkR = s.ports.blockIn ∧
      t.keyR = s.ports.keyIn ∧ decodeKey s.ports.keyIn.toList = some (t.keyHigh, t.keyLow) ∧
      keySchedule s.ports.keyIn.toList = some t.subkeys.toList ∧ t.n = 44 ∧ t.z = 0x0000000000fc2ce5 ∧
      t.state64 = t.left ++ t.right

/-- The outputs of a transaction are a function of the three values its ACCEPT step latches and of nothing
else: two states that agree on the ports alone show the same outputs after it (R36). -/
def Obligations.OutputsDependOnTheLatchedValuesOnly : Prop :=
  ∀ s s' : State, Requested s → Requested s' → s'.ports = s.ports →
    ValidBlock s.ports.blockIn.toList → ValidKey s.ports.keyIn.toList →
    ∃ t t', runFor 91 s = .next t ∧ runFor 91 s' = .next t' ∧ t.outputs = t'.outputs
end

