-- ==== Sys2Proof/Laws/State.lean ====
section
/-! SUPPORT. What each named update of State does to each field: true by rfl, one lemma a field.
`writeSubkey` is last; it changes `subkeys` alone. -/

namespace Sys2Proof.Machine

@[simp] theorem clearFlags_left (s : State) : (clearFlags s).left = s.left := rfl
@[simp] theorem clearFlags_right (s : State) : (clearFlags s).right = s.right := rfl
@[simp] theorem clearFlags_state64 (s : State) : (clearFlags s).state64 = s.state64 := rfl
@[simp] theorem clearFlags_keyHigh (s : State) : (clearFlags s).keyHigh = s.keyHigh := rfl
@[simp] theorem clearFlags_keyLow (s : State) : (clearFlags s).keyLow = s.keyLow := rfl
@[simp] theorem clearFlags_z (s : State) : (clearFlags s).z = s.z := rfl
@[simp] theorem clearFlags_subkeys (s : State) : (clearFlags s).subkeys = s.subkeys := rfl
@[simp] theorem clearFlags_opR (s : State) : (clearFlags s).opR = s.opR := rfl
@[simp] theorem clearFlags_blkR (s : State) : (clearFlags s).blkR = s.blkR := rfl
@[simp] theorem clearFlags_keyR (s : State) : (clearFlags s).keyR = s.keyR := rfl
@[simp] theorem clearFlags_phase (s : State) : (clearFlags s).phase = s.phase := rfl
@[simp] theorem clearFlags_n (s : State) : (clearFlags s).n = s.n := rfl
@[simp] theorem clearFlags_blockOut (s : State) : (clearFlags s).blockOut = s.blockOut := rfl
@[simp] theorem clearFlags_done (s : State) : (clearFlags s).done = false := rfl
@[simp] theorem clearFlags_err (s : State) : (clearFlags s).err = false := rfl
@[simp] theorem clearFlags_acc (s : State) : (clearFlags s).acc = s.acc := rfl
@[simp] theorem clearFlags_ports (s : State) : (clearFlags s).ports = s.ports := rfl
@[simp] theorem clearFlags_script (s : State) : (clearFlags s).script = s.script := rfl
@[simp] theorem clearFlags_draw (s : State) : (clearFlags s).draw = s.draw := rfl

@[simp] theorem setDone_left (s : State) : (setDone s).left = s.left := rfl
@[simp] theorem setDone_right (s : State) : (setDone s).right = s.right := rfl
@[simp] theorem setDone_state64 (s : State) : (setDone s).state64 = s.state64 := rfl
@[simp] theorem setDone_keyHigh (s : State) : (setDone s).keyHigh = s.keyHigh := rfl
@[simp] theorem setDone_keyLow (s : State) : (setDone s).keyLow = s.keyLow := rfl
@[simp] theorem setDone_z (s : State) : (setDone s).z = s.z := rfl
@[simp] theorem setDone_subkeys (s : State) : (setDone s).subkeys = s.subkeys := rfl
@[simp] theorem setDone_opR (s : State) : (setDone s).opR = s.opR := rfl
@[simp] theorem setDone_blkR (s : State) : (setDone s).blkR = s.blkR := rfl
@[simp] theorem setDone_keyR (s : State) : (setDone s).keyR = s.keyR := rfl
@[simp] theorem setDone_phase (s : State) : (setDone s).phase = s.phase := rfl
@[simp] theorem setDone_n (s : State) : (setDone s).n = s.n := rfl
@[simp] theorem setDone_blockOut (s : State) : (setDone s).blockOut = s.blockOut := rfl
@[simp] theorem setDone_done (s : State) : (setDone s).done = true := rfl
@[simp] theorem setDone_err (s : State) : (setDone s).err = s.err := rfl
@[simp] theorem setDone_acc (s : State) : (setDone s).acc = s.acc := rfl
@[simp] theorem setDone_ports (s : State) : (setDone s).ports = s.ports := rfl
@[simp] theorem setDone_script (s : State) : (setDone s).script = s.script := rfl
@[simp] theorem setDone_draw (s : State) : (setDone s).draw = s.draw := rfl

@[simp] theorem setFailed_left (s : State) : (setFailed s).left = s.left := rfl
@[simp] theorem setFailed_right (s : State) : (setFailed s).right = s.right := rfl
@[simp] theorem setFailed_state64 (s : State) : (setFailed s).state64 = s.state64 := rfl
@[simp] theorem setFailed_keyHigh (s : State) : (setFailed s).keyHigh = s.keyHigh := rfl
@[simp] theorem setFailed_keyLow (s : State) : (setFailed s).keyLow = s.keyLow := rfl
@[simp] theorem setFailed_z (s : State) : (setFailed s).z = s.z := rfl
@[simp] theorem setFailed_subkeys (s : State) : (setFailed s).subkeys = s.subkeys := rfl
@[simp] theorem setFailed_opR (s : State) : (setFailed s).opR = s.opR := rfl
@[simp] theorem setFailed_blkR (s : State) : (setFailed s).blkR = s.blkR := rfl
@[simp] theorem setFailed_keyR (s : State) : (setFailed s).keyR = s.keyR := rfl
@[simp] theorem setFailed_phase (s : State) : (setFailed s).phase = s.phase := rfl
@[simp] theorem setFailed_n (s : State) : (setFailed s).n = s.n := rfl
@[simp] theorem setFailed_blockOut (s : State) : (setFailed s).blockOut = s.blockOut := rfl
@[simp] theorem setFailed_done (s : State) : (setFailed s).done = true := rfl
@[simp] theorem setFailed_err (s : State) : (setFailed s).err = true := rfl
@[simp] theorem setFailed_acc (s : State) : (setFailed s).acc = s.acc := rfl
@[simp] theorem setFailed_ports (s : State) : (setFailed s).ports = s.ports := rfl
@[simp] theorem setFailed_script (s : State) : (setFailed s).script = s.script := rfl
@[simp] theorem setFailed_draw (s : State) : (setFailed s).draw = s.draw := rfl

@[simp] theorem clearAcc_left (s : State) : (clearAcc s).left = s.left := rfl
@[simp] theorem clearAcc_right (s : State) : (clearAcc s).right = s.right := rfl
@[simp] theorem clearAcc_state64 (s : State) : (clearAcc s).state64 = s.state64 := rfl
@[simp] theorem clearAcc_keyHigh (s : State) : (clearAcc s).keyHigh = s.keyHigh := rfl
@[simp] theorem clearAcc_keyLow (s : State) : (clearAcc s).keyLow = s.keyLow := rfl
@[simp] theorem clearAcc_z (s : State) : (clearAcc s).z = s.z := rfl
@[simp] theorem clearAcc_subkeys (s : State) : (clearAcc s).subkeys = s.subkeys := rfl
@[simp] theorem clearAcc_opR (s : State) : (clearAcc s).opR = s.opR := rfl
@[simp] theorem clearAcc_blkR (s : State) : (clearAcc s).blkR = s.blkR := rfl
@[simp] theorem clearAcc_keyR (s : State) : (clearAcc s).keyR = s.keyR := rfl
@[simp] theorem clearAcc_phase (s : State) : (clearAcc s).phase = s.phase := rfl
@[simp] theorem clearAcc_n (s : State) : (clearAcc s).n = s.n := rfl
@[simp] theorem clearAcc_blockOut (s : State) : (clearAcc s).blockOut = s.blockOut := rfl
@[simp] theorem clearAcc_done (s : State) : (clearAcc s).done = s.done := rfl
@[simp] theorem clearAcc_err (s : State) : (clearAcc s).err = s.err := rfl
@[simp] theorem clearAcc_acc (s : State) : (clearAcc s).acc = 0 := rfl
@[simp] theorem clearAcc_ports (s : State) : (clearAcc s).ports = s.ports := rfl
@[simp] theorem clearAcc_script (s : State) : (clearAcc s).script = s.script := rfl
@[simp] theorem clearAcc_draw (s : State) : (clearAcc s).draw = s.draw := rfl

@[simp] theorem takeNibble_left (v : Nibble) (s : State) : (takeNibble v s).left = s.left := rfl
@[simp] theorem takeNibble_right (v : Nibble) (s : State) : (takeNibble v s).right = s.right := rfl
@[simp] theorem takeNibble_state64 (v : Nibble) (s : State) : (takeNibble v s).state64 = s.state64 := rfl
@[simp] theorem takeNibble_keyHigh (v : Nibble) (s : State) : (takeNibble v s).keyHigh = s.keyHigh := rfl
@[simp] theorem takeNibble_keyLow (v : Nibble) (s : State) : (takeNibble v s).keyLow = s.keyLow := rfl
@[simp] theorem takeNibble_z (v : Nibble) (s : State) : (takeNibble v s).z = s.z := rfl
@[simp] theorem takeNibble_subkeys (v : Nibble) (s : State) : (takeNibble v s).subkeys = s.subkeys := rfl
@[simp] theorem takeNibble_opR (v : Nibble) (s : State) : (takeNibble v s).opR = s.opR := rfl
@[simp] theorem takeNibble_blkR (v : Nibble) (s : State) : (takeNibble v s).blkR = s.blkR := rfl
@[simp] theorem takeNibble_keyR (v : Nibble) (s : State) : (takeNibble v s).keyR = s.keyR := rfl
@[simp] theorem takeNibble_phase (v : Nibble) (s : State) : (takeNibble v s).phase = s.phase := rfl
@[simp] theorem takeNibble_n (v : Nibble) (s : State) : (takeNibble v s).n = s.n := rfl
@[simp] theorem takeNibble_blockOut (v : Nibble) (s : State) : (takeNibble v s).blockOut = s.blockOut := rfl
@[simp] theorem takeNibble_done (v : Nibble) (s : State) : (takeNibble v s).done = s.done := rfl
@[simp] theorem takeNibble_err (v : Nibble) (s : State) : (takeNibble v s).err = s.err := rfl
@[simp] theorem takeNibble_acc (v : Nibble) (s : State) : (takeNibble v s).acc = accumulate s.acc v := rfl
@[simp] theorem takeNibble_ports (v : Nibble) (s : State) : (takeNibble v s).ports = s.ports := rfl
@[simp] theorem takeNibble_script (v : Nibble) (s : State) : (takeNibble v s).script = s.script := rfl
@[simp] theorem takeNibble_draw (v : Nibble) (s : State) : (takeNibble v s).draw = s.draw := rfl

@[simp] theorem goto_left (p : Phase) (s : State) : (goto p s).left = s.left := rfl
@[simp] theorem goto_right (p : Phase) (s : State) : (goto p s).right = s.right := rfl
@[simp] theorem goto_state64 (p : Phase) (s : State) : (goto p s).state64 = s.state64 := rfl
@[simp] theorem goto_keyHigh (p : Phase) (s : State) : (goto p s).keyHigh = s.keyHigh := rfl
@[simp] theorem goto_keyLow (p : Phase) (s : State) : (goto p s).keyLow = s.keyLow := rfl
@[simp] theorem goto_z (p : Phase) (s : State) : (goto p s).z = s.z := rfl
@[simp] theorem goto_subkeys (p : Phase) (s : State) : (goto p s).subkeys = s.subkeys := rfl
@[simp] theorem goto_opR (p : Phase) (s : State) : (goto p s).opR = s.opR := rfl
@[simp] theorem goto_blkR (p : Phase) (s : State) : (goto p s).blkR = s.blkR := rfl
@[simp] theorem goto_keyR (p : Phase) (s : State) : (goto p s).keyR = s.keyR := rfl
@[simp] theorem goto_phase (p : Phase) (s : State) : (goto p s).phase = p := rfl
@[simp] theorem goto_n (p : Phase) (s : State) : (goto p s).n = s.n := rfl
@[simp] theorem goto_blockOut (p : Phase) (s : State) : (goto p s).blockOut = s.blockOut := rfl
@[simp] theorem goto_done (p : Phase) (s : State) : (goto p s).done = s.done := rfl
@[simp] theorem goto_err (p : Phase) (s : State) : (goto p s).err = s.err := rfl
@[simp] theorem goto_acc (p : Phase) (s : State) : (goto p s).acc = s.acc := rfl
@[simp] theorem goto_ports (p : Phase) (s : State) : (goto p s).ports = s.ports := rfl
@[simp] theorem goto_script (p : Phase) (s : State) : (goto p s).script = s.script := rfl
@[simp] theorem goto_draw (p : Phase) (s : State) : (goto p s).draw = s.draw := rfl

@[simp] theorem raiseInvalidInput_left (s : State) : (raiseInvalidInput s).left = s.left := rfl
@[simp] theorem raiseInvalidInput_right (s : State) : (raiseInvalidInput s).right = s.right := rfl
@[simp] theorem raiseInvalidInput_state64 (s : State) : (raiseInvalidInput s).state64 = s.state64 := rfl
@[simp] theorem raiseInvalidInput_keyHigh (s : State) : (raiseInvalidInput s).keyHigh = s.keyHigh := rfl
@[simp] theorem raiseInvalidInput_keyLow (s : State) : (raiseInvalidInput s).keyLow = s.keyLow := rfl
@[simp] theorem raiseInvalidInput_z (s : State) : (raiseInvalidInput s).z = s.z := rfl
@[simp] theorem raiseInvalidInput_subkeys (s : State) : (raiseInvalidInput s).subkeys = s.subkeys := rfl
@[simp] theorem raiseInvalidInput_opR (s : State) : (raiseInvalidInput s).opR = s.opR := rfl
@[simp] theorem raiseInvalidInput_blkR (s : State) : (raiseInvalidInput s).blkR = s.blkR := rfl
@[simp] theorem raiseInvalidInput_keyR (s : State) : (raiseInvalidInput s).keyR = s.keyR := rfl
@[simp] theorem raiseInvalidInput_phase (s : State) : (raiseInvalidInput s).phase = .failed := rfl
@[simp] theorem raiseInvalidInput_n (s : State) : (raiseInvalidInput s).n = s.n := rfl
@[simp] theorem raiseInvalidInput_blockOut (s : State) : (raiseInvalidInput s).blockOut = s.blockOut := rfl
@[simp] theorem raiseInvalidInput_done (s : State) : (raiseInvalidInput s).done = true := rfl
@[simp] theorem raiseInvalidInput_err (s : State) : (raiseInvalidInput s).err = true := rfl
@[simp] theorem raiseInvalidInput_acc (s : State) : (raiseInvalidInput s).acc = s.acc := rfl
@[simp] theorem raiseInvalidInput_ports (s : State) : (raiseInvalidInput s).ports = s.ports := rfl
@[simp] theorem raiseInvalidInput_script (s : State) : (raiseInvalidInput s).script = s.script := rfl
@[simp] theorem raiseInvalidInput_draw (s : State) : (raiseInvalidInput s).draw = s.draw := rfl

@[simp] theorem accept_left (o : BitVec 1) (b : HexBlock) (k : HexKey) (s : State) : (accept o b k s).left = s.left := rfl
@[simp] theorem accept_right (o : BitVec 1) (b : HexBlock) (k : HexKey) (s : State) : (accept o b k s).right = s.right := rfl
@[simp] theorem accept_state64 (o : BitVec 1) (b : HexBlock) (k : HexKey) (s : State) : (accept o b k s).state64 = s.state64 := rfl
@[simp] theorem accept_keyHigh (o : BitVec 1) (b : HexBlock) (k : HexKey) (s : State) : (accept o b k s).keyHigh = s.keyHigh := rfl
@[simp] theorem accept_keyLow (o : BitVec 1) (b : HexBlock) (k : HexKey) (s : State) : (accept o b k s).keyLow = s.keyLow := rfl
@[simp] theorem accept_z (o : BitVec 1) (b : HexBlock) (k : HexKey) (s : State) : (accept o b k s).z = s.z := rfl
@[simp] theorem accept_subkeys (o : BitVec 1) (b : HexBlock) (k : HexKey) (s : State) : (accept o b k s).subkeys = s.subkeys := rfl
@[simp] theorem accept_opR (o : BitVec 1) (b : HexBlock) (k : HexKey) (s : State) : (accept o b k s).opR = o := rfl
@[simp] theorem accept_blkR (o : BitVec 1) (b : HexBlock) (k : HexKey) (s : State) : (accept o b k s).blkR = b := rfl
@[simp] theorem accept_keyR (o : BitVec 1) (b : HexBlock) (k : HexKey) (s : State) : (accept o b k s).keyR = k := rfl
@[simp] theorem accept_phase (o : BitVec 1) (b : HexBlock) (k : HexKey) (s : State) : (accept o b k s).phase = .keyDecode := rfl
@[simp] theorem accept_n (o : BitVec 1) (b : HexBlock) (k : HexKey) (s : State) : (accept o b k s).n = s.n := rfl
@[simp] theorem accept_blockOut (o : BitVec 1) (b : HexBlock) (k : HexKey) (s : State) : (accept o b k s).blockOut = s.blockOut := rfl
@[simp] theorem accept_done (o : BitVec 1) (b : HexBlock) (k : HexKey) (s : State) : (accept o b k s).done = false := rfl
@[simp] theorem accept_err (o : BitVec 1) (b : HexBlock) (k : HexKey) (s : State) : (accept o b k s).err = false := rfl
@[simp] theorem accept_acc (o : BitVec 1) (b : HexBlock) (k : HexKey) (s : State) : (accept o b k s).acc = s.acc := rfl
@[simp] theorem accept_ports (o : BitVec 1) (b : HexBlock) (k : HexKey) (s : State) : (accept o b k s).ports = s.ports := rfl
@[simp] theorem accept_script (o : BitVec 1) (b : HexBlock) (k : HexKey) (s : State) : (accept o b k s).script = s.script := rfl
@[simp] theorem accept_draw (o : BitVec 1) (b : HexBlock) (k : HexKey) (s : State) : (accept o b k s).draw = s.draw := rfl

@[simp] theorem setBlockState_left (b : BlockState) (s : State) : (setBlockState b s).left = b.left := rfl
@[simp] theorem setBlockState_right (b : BlockState) (s : State) : (setBlockState b s).right = b.right := rfl
@[simp] theorem setBlockState_state64 (b : BlockState) (s : State) : (setBlockState b s).state64 = s.state64 := rfl
@[simp] theorem setBlockState_keyHigh (b : BlockState) (s : State) : (setBlockState b s).keyHigh = s.keyHigh := rfl
@[simp] theorem setBlockState_keyLow (b : BlockState) (s : State) : (setBlockState b s).keyLow = s.keyLow := rfl
@[simp] theorem setBlockState_z (b : BlockState) (s : State) : (setBlockState b s).z = s.z := rfl
@[simp] theorem setBlockState_subkeys (b : BlockState) (s : State) : (setBlockState b s).subkeys = s.subkeys := rfl
@[simp] theorem setBlockState_opR (b : BlockState) (s : State) : (setBlockState b s).opR = s.opR := rfl
@[simp] theorem setBlockState_blkR (b : BlockState) (s : State) : (setBlockState b s).blkR = s.blkR := rfl
@[simp] theorem setBlockState_keyR (b : BlockState) (s : State) : (setBlockState b s).keyR = s.keyR := rfl
@[simp] theorem setBlockState_phase (b : BlockState) (s : State) : (setBlockState b s).phase = s.phase := rfl
@[simp] theorem setBlockState_n (b : BlockState) (s : State) : (setBlockState b s).n = s.n := rfl
@[simp] theorem setBlockState_blockOut (b : BlockState) (s : State) : (setBlockState b s).blockOut = s.blockOut := rfl
@[simp] theorem setBlockState_done (b : BlockState) (s : State) : (setBlockState b s).done = s.done := rfl
@[simp] theorem setBlockState_err (b : BlockState) (s : State) : (setBlockState b s).err = s.err := rfl
@[simp] theorem setBlockState_acc (b : BlockState) (s : State) : (setBlockState b s).acc = s.acc := rfl
@[simp] theorem setBlockState_ports (b : BlockState) (s : State) : (setBlockState b s).ports = s.ports := rfl
@[simp] theorem setBlockState_script (b : BlockState) (s : State) : (setBlockState b s).script = s.script := rfl
@[simp] theorem setBlockState_draw (b : BlockState) (s : State) : (setBlockState b s).draw = s.draw := rfl

@[simp] theorem endStep_left (s : State) : (endStep s).left = s.left := rfl
@[simp] theorem endStep_right (s : State) : (endStep s).right = s.right := rfl
@[simp] theorem endStep_state64 (s : State) : (endStep s).state64 = s.state64 := rfl
@[simp] theorem endStep_keyHigh (s : State) : (endStep s).keyHigh = s.keyHigh := rfl
@[simp] theorem endStep_keyLow (s : State) : (endStep s).keyLow = s.keyLow := rfl
@[simp] theorem endStep_z (s : State) : (endStep s).z = s.z := rfl
@[simp] theorem endStep_subkeys (s : State) : (endStep s).subkeys = s.subkeys := rfl
@[simp] theorem endStep_opR (s : State) : (endStep s).opR = s.opR := rfl
@[simp] theorem endStep_blkR (s : State) : (endStep s).blkR = s.blkR := rfl
@[simp] theorem endStep_keyR (s : State) : (endStep s).keyR = s.keyR := rfl
@[simp] theorem endStep_phase (s : State) : (endStep s).phase = s.phase := rfl
@[simp] theorem endStep_n (s : State) : (endStep s).n = s.n := rfl
@[simp] theorem endStep_blockOut (s : State) : (endStep s).blockOut = s.blockOut := rfl
@[simp] theorem endStep_done (s : State) : (endStep s).done = s.done := rfl
@[simp] theorem endStep_err (s : State) : (endStep s).err = s.err := rfl
@[simp] theorem endStep_acc (s : State) : (endStep s).acc = s.acc := rfl
@[simp] theorem endStep_ports (s : State) : (endStep s).ports = nextPorts s.ports s.script := rfl
@[simp] theorem endStep_script (s : State) : (endStep s).script = s.script.tail := rfl
@[simp] theorem endStep_draw (s : State) : (endStep s).draw = s.draw + 1 := rfl

@[simp] theorem resetRegisters_left (s : State) : (resetRegisters s).left = Config.freeLeft s.draw := rfl
@[simp] theorem resetRegisters_right (s : State) : (resetRegisters s).right = Config.freeRight s.draw := rfl
@[simp] theorem resetRegisters_state64 (s : State) : (resetRegisters s).state64 = Config.freeState64 s.draw := rfl
@[simp] theorem resetRegisters_keyHigh (s : State) : (resetRegisters s).keyHigh = Config.freeKeyHigh s.draw := rfl
@[simp] theorem resetRegisters_keyLow (s : State) : (resetRegisters s).keyLow = Config.freeKeyLow s.draw := rfl
@[simp] theorem resetRegisters_z (s : State) : (resetRegisters s).z = Config.freeZ s.draw := rfl
@[simp] theorem resetRegisters_subkeys (s : State) : (resetRegisters s).subkeys = Config.freeSubkeys s.draw := rfl
@[simp] theorem resetRegisters_opR (s : State) : (resetRegisters s).opR = Config.freeOpR s.draw := rfl
@[simp] theorem resetRegisters_blkR (s : State) : (resetRegisters s).blkR = Config.freeBlkR s.draw := rfl
@[simp] theorem resetRegisters_keyR (s : State) : (resetRegisters s).keyR = Config.freeKeyR s.draw := rfl
@[simp] theorem resetRegisters_phase (s : State) : (resetRegisters s).phase = .idle := rfl
@[simp] theorem resetRegisters_n (s : State) : (resetRegisters s).n = Config.freeN s.draw := rfl
@[simp] theorem resetRegisters_blockOut (s : State) : (resetRegisters s).blockOut = Config.freeBlockOut s.draw := rfl
@[simp] theorem resetRegisters_done (s : State) : (resetRegisters s).done = false := rfl
@[simp] theorem resetRegisters_err (s : State) : (resetRegisters s).err = false := rfl
@[simp] theorem resetRegisters_acc (s : State) : (resetRegisters s).acc = 0 := rfl
@[simp] theorem resetRegisters_ports (s : State) : (resetRegisters s).ports = s.ports := rfl
@[simp] theorem resetRegisters_script (s : State) : (resetRegisters s).script = s.script := rfl
@[simp] theorem resetRegisters_draw (s : State) : (resetRegisters s).draw = s.draw := rfl

@[simp] theorem writeSubkey_left (i : Counter) (v : Word32) (s : State) : (writeSubkey i v s).left = s.left := by
  unfold writeSubkey; split <;> rfl
@[simp] theorem writeSubkey_right (i : Counter) (v : Word32) (s : State) : (writeSubkey i v s).right = s.right := by
  unfold writeSubkey; split <;> rfl
@[simp] theorem writeSubkey_state64 (i : Counter) (v : Word32) (s : State) : (writeSubkey i v s).state64 = s.state64 := by
  unfold writeSubkey; split <;> rfl
@[simp] theorem writeSubkey_keyHigh (i : Counter) (v : Word32) (s : State) : (writeSubkey i v s).keyHigh = s.keyHigh := by
  unfold writeSubkey; split <;> rfl
@[simp] theorem writeSubkey_keyLow (i : Counter) (v : Word32) (s : State) : (writeSubkey i v s).keyLow = s.keyLow := by
  unfold writeSubkey; split <;> rfl
@[simp] theorem writeSubkey_z (i : Counter) (v : Word32) (s : State) : (writeSubkey i v s).z = s.z := by
  unfold writeSubkey; split <;> rfl
@[simp] theorem writeSubkey_opR (i : Counter) (v : Word32) (s : State) : (writeSubkey i v s).opR = s.opR := by
  unfold writeSubkey; split <;> rfl
@[simp] theorem writeSubkey_blkR (i : Counter) (v : Word32) (s : State) : (writeSubkey i v s).blkR = s.blkR := by
  unfold writeSubkey; split <;> rfl
@[simp] theorem writeSubkey_keyR (i : Counter) (v : Word32) (s : State) : (writeSubkey i v s).keyR = s.keyR := by
  unfold writeSubkey; split <;> rfl
@[simp] theorem writeSubkey_phase (i : Counter) (v : Word32) (s : State) : (writeSubkey i v s).phase = s.phase := by
  unfold writeSubkey; split <;> rfl
@[simp] theorem writeSubkey_n (i : Counter) (v : Word32) (s : State) : (writeSubkey i v s).n = s.n := by
  unfold writeSubkey; split <;> rfl
@[simp] theorem writeSubkey_blockOut (i : Counter) (v : Word32) (s : State) : (writeSubkey i v s).blockOut = s.blockOut := by
  unfold writeSubkey; split <;> rfl
@[simp] theorem writeSubkey_done (i : Counter) (v : Word32) (s : State) : (writeSubkey i v s).done = s.done := by
  unfold writeSubkey; split <;> rfl
@[simp] theorem writeSubkey_err (i : Counter) (v : Word32) (s : State) : (writeSubkey i v s).err = s.err := by
  unfold writeSubkey; split <;> rfl
@[simp] theorem writeSubkey_acc (i : Counter) (v : Word32) (s : State) : (writeSubkey i v s).acc = s.acc := by
  unfold writeSubkey; split <;> rfl
@[simp] theorem writeSubkey_ports (i : Counter) (v : Word32) (s : State) : (writeSubkey i v s).ports = s.ports := by
  unfold writeSubkey; split <;> rfl
@[simp] theorem writeSubkey_script (i : Counter) (v : Word32) (s : State) : (writeSubkey i v s).script = s.script := by
  unfold writeSubkey; split <;> rfl
@[simp] theorem writeSubkey_draw (i : Counter) (v : Word32) (s : State) : (writeSubkey i v s).draw = s.draw := by
  unfold writeSubkey; split <;> rfl

/-- A write inside the file changes that entry (R65). -/
theorem writeSubkey_subkeys (i : Counter) (v : Word32) (s : State) (h : i.toNat < 44) :
    (writeSubkey i v s).subkeys = s.subkeys.set i.toNat v := by
  simp [writeSubkey, h]

/-- A read inside the file gives that entry (R65). -/
theorem readSubkey_of_lt (i : Counter) (s : State) (h : i.toNat < 44) :
    readSubkey i s = s.subkeys[i.toNat] := by
  simp [readSubkey, h]

/-- A read at an index whose number is known (R65). -/
theorem readSubkey_at {i : Counter} {j : Nat} (s : State) (hj : j < 44) (h : i.toNat = j) :
    readSubkey i s = s.subkeys[j] := by
  subst h; exact readSubkey_of_lt i s hj

/-- A state is its fields. -/
theorem State.ext_fields {s t : State}
    (h_left : s.left = t.left)
    (h_right : s.right = t.right)
    (h_state64 : s.state64 = t.state64)
    (h_keyHigh : s.keyHigh = t.keyHigh)
    (h_keyLow : s.keyLow = t.keyLow)
    (h_z : s.z = t.z)
    (h_subkeys : s.subkeys = t.subkeys)
    (h_opR : s.opR = t.opR)
    (h_blkR : s.blkR = t.blkR)
    (h_keyR : s.keyR = t.keyR)
    (h_phase : s.phase = t.phase)
    (h_n : s.n = t.n)
    (h_blockOut : s.blockOut = t.blockOut)
    (h_done : s.done = t.done)
    (h_err : s.err = t.err)
    (h_acc : s.acc = t.acc)
    (h_ports : s.ports = t.ports)
    (h_script : s.script = t.script)
    (h_draw : s.draw = t.draw) : s = t := by
  cases s; cases t; simp_all

end Sys2Proof.Machine
end

