-- ==== Sys2Proof/Laws/Codec.lean ====
section
/-! SUPPORT. The decode loop and the decoder of the machine: what a decode does, once. -/

namespace Sys2Proof.Machine

/-- One character into the machine's decoder, then the rest. -/
theorem feedText_cons (c : Byte) (cs : Text) (s : State) :
    feedText (c :: cs) s = (hexval c).bind fun v => feedText cs (takeNibble v s) := by
  cases h : hexval c <;> simp [feedText, decodeFrom, h, takeNibble]

/-- A string decoded from zero leaves its value in the accumulator, or there is no value (R132, R136). -/
theorem decodeText_eq (text : Text) (s : State) :
    decodeText text s = (decodeFrom 0 text).map fun v => { s with acc := v } := by
  simp [decodeText, feedText, clearAcc]

/-- The decode loop succeeds exactly on strings of valid characters (R137). -/
theorem decodeFrom_isSome (acc : Word64) (text : Text) :
    (decodeFrom acc text).isSome = text.all validChar := by
  induction text generalizing acc with
  | nil => rfl
  | cons c cs ih =>
    cases h : hexval c <;> simp [decodeFrom, h, validChar, ih]

/-- The decode loop is the fold of its characters' nibbles. -/
theorem decodeFrom_append (acc : Word64) (xs ys : Text) :
    decodeFrom acc (xs ++ ys) = (decodeFrom acc xs).bind fun a => decodeFrom a ys := by
  induction xs generalizing acc with
  | nil => rfl
  | cons c cs ih => cases h : hexval c <;> simp [decodeFrom, h, ih]

/-- A string of 16 is decoded by the loop from zero (R132). -/
theorem decodeHex_of_length {text : Text} (h : text.length = 16) :
    decodeHex text = decodeFrom 0 text := by simp [decodeHex, h]

/-- The key decode of a string of 32, half by half (R151). -/
theorem decodeKey_of_length {key : Text} (h : key.length = 32) :
    decodeKey key =
      (decodeFrom 0 (keyHighText key)).bind fun high =>
        (decodeFrom 0 (keyLowText key)).map fun low => (high, low) := by
  simp only [decodeKey, decodeHexKeyHigh, decodeHexKeyLow, decodeHex, keyHighText, keyLowText,
    List.length_take, List.length_drop, h]
  cases decodeFrom 0 (List.take 16 key) <;> cases decodeFrom 0 (List.drop 16 key) <;> rfl

/-- A character code's row and its digit value are the same table (R84, R130). -/
theorem exec_of_decodeChar : ∀ c : Byte, ∀ s : State,
    (decodeChar c).map (fun i => exec i s) = (hexval c).map fun v => .next (takeNibble v s) := by
  intro c s
  have key : ∀ c : Byte, decodeChar c = (hexval c).map fun v =>
      [Instr.hexChar0, .hexChar1, .hexChar2, .hexChar3, .hexChar4, .hexChar5, .hexChar6, .hexChar7,
       .hexChar8, .hexChar9, .hexCharA, .hexCharB, .hexCharC, .hexCharD, .hexCharE, .hexCharF][v.toNat]'v.isLt := by
    decide +kernel
  rw [key c]
  cases hexval c with
  | none => rfl
  | some v =>
    obtain ⟨⟨v, hv⟩⟩ := v
    interval_cases v <;> rfl

end Sys2Proof.Machine
end

