-- ==== Sys2Proof/Laws/PerInstr.lean ====
section
/-! SUPPORT. Lemma families over the instructions as syntax, one lemma a constructor (LAWS.json). -/

namespace Sys2Proof.Laws.TableRow

/-- The mask and the match of an instruction's row in spec/opcode_table.json. -/
def row : Instr → Nat × Nat
  | .encrypt _ _ => (0x1, 0x0)
  | .decrypt _ _ => (0x1, 0x1)
  | .hexChar0 => (0xff, 0x30)
  | .hexChar1 => (0xff, 0x31)
  | .hexChar2 => (0xff, 0x32)
  | .hexChar3 => (0xff, 0x33)
  | .hexChar4 => (0xff, 0x34)
  | .hexChar5 => (0xff, 0x35)
  | .hexChar6 => (0xff, 0x36)
  | .hexChar7 => (0xff, 0x37)
  | .hexChar8 => (0xff, 0x38)
  | .hexChar9 => (0xff, 0x39)
  | .hexCharA => (0xff, 0x61)
  | .hexCharB => (0xff, 0x62)
  | .hexCharC => (0xff, 0x63)
  | .hexCharD => (0xff, 0x64)
  | .hexCharE => (0xff, 0x65)
  | .hexCharF => (0xff, 0x66)

/-- The first byte of an instruction's encoding is the one its row of the table gives. -/
def Statement (i : Instr) : Prop :=
  ∃ b rest, encode i = b :: rest ∧ b.toNat &&& (row i).1 = (row i).2

theorem encrypt (block key : Text) : Statement (.encrypt block key) :=
  ⟨encodeOp 0, block ++ key, rfl, (by decide : (encodeOp 0).toNat &&& 0x1 = 0x0)⟩
theorem decrypt (block key : Text) : Statement (.decrypt block key) :=
  ⟨encodeOp 1, block ++ key, rfl, (by decide : (encodeOp 1).toNat &&& 0x1 = 0x1)⟩
theorem hexChar0 : Statement .hexChar0 := ⟨_, _, rfl, by decide⟩
theorem hexChar1 : Statement .hexChar1 := ⟨_, _, rfl, by decide⟩
theorem hexChar2 : Statement .hexChar2 := ⟨_, _, rfl, by decide⟩
theorem hexChar3 : Statement .hexChar3 := ⟨_, _, rfl, by decide⟩
theorem hexChar4 : Statement .hexChar4 := ⟨_, _, rfl, by decide⟩
theorem hexChar5 : Statement .hexChar5 := ⟨_, _, rfl, by decide⟩
theorem hexChar6 : Statement .hexChar6 := ⟨_, _, rfl, by decide⟩
theorem hexChar7 : Statement .hexChar7 := ⟨_, _, rfl, by decide⟩
theorem hexChar8 : Statement .hexChar8 := ⟨_, _, rfl, by decide⟩
theorem hexChar9 : Statement .hexChar9 := ⟨_, _, rfl, by decide⟩
theorem hexCharA : Statement .hexCharA := ⟨_, _, rfl, by decide⟩
theorem hexCharB : Statement .hexCharB := ⟨_, _, rfl, by decide⟩
theorem hexCharC : Statement .hexCharC := ⟨_, _, rfl, by decide⟩
theorem hexCharD : Statement .hexCharD := ⟨_, _, rfl, by decide⟩
theorem hexCharE : Statement .hexCharE := ⟨_, _, rfl, by decide⟩
theorem hexCharF : Statement .hexCharF := ⟨_, _, rfl, by decide⟩

end Sys2Proof.Laws.TableRow
end

