-- ==== Sys2Proof/Laws/Schedule.lean ====
section
/-! SUPPORT. The key schedule as a list: its length and its first window (R152, R155). -/

namespace Sys2Proof.Machine

/-- Each turn of the expansion adds one subkey to the four of the window (R153). -/
theorem expandFrom_length : ∀ (more : Nat) (z : Word64) (w : Window),
    (expandFrom more z w).length = more + 4
  | 0, _, _ => rfl
  | more + 1, z, w => by simp [expandFrom, expandFrom_length more]

/-- The expansion starts with the window it was given (R152). -/
theorem expandFrom_take : ∀ (more : Nat) (z : Word64) (w : Window),
    (expandFrom more z w).take 4 = [w.k0, w.k1, w.k2, w.k3]
  | 0, _, _ => rfl
  | 1, _, _ => rfl
  | 2, _, _ => rfl
  | 3, _, _ => rfl
  | more + 4, z, w => by simp [expandFrom, Window.advance]

/-- A schedule is that of the decoded key (R155). -/
theorem keySchedule_eq_some {key : Text} {subkeys : List Word32} :
    keySchedule key = some subkeys ↔
      ∃ high low, decodeKey key = some (high, low) ∧ scheduleOf high low = subkeys := by
  simp [keySchedule]

/-- A schedule has 44 entries (R156). -/
theorem scheduleOf_length (high low : Word64) : (scheduleOf high low).length = 44 :=
  expandFrom_length 40 _ _

end Sys2Proof.Machine
end

