-- ==== Sys2Proof/Laws/Sequencer.lean ====
section
/-! SUPPORT. One lemma for each micro-step that says once everything it does, and what a step is. -/

namespace Sys2Proof.Machine

/-- KEY_DECODE, once: both registers from the latched key, or the exception and nothing written (R207). -/
theorem keyDecode_eq (s : State) :
    keyDecode s =
      match decodeKey s.keyR.toList with
      | some halves =>
          { s with keyHigh := halves.1, keyLow := halves.2, acc := 0, phase := .keySeed }
      | none => raiseInvalidInput s := by
  rw [decodeKey_of_length (by simp)]
  simp only [keyDecode, decodeText_eq]
  cases h : decodeFrom 0 (keyHighText s.keyR.toList) with
  | none => simp
  | some high =>
    cases h' : decodeFrom 0 (keyLowText s.keyR.toList) with
    | none => simp
    | some low => simp [clearAcc, goto]

/-- BLOCK_DECODE, once (R210). -/
theorem blockDecode_eq (s : State) :
    blockDecode s =
      match decodeHex s.blkR.toList with
      | some v => { s with state64 := v, acc := 0, phase := .split }
      | none => raiseInvalidInput s := by
  rw [decodeHex_of_length (by simp)]
  simp only [blockDecode, decodeText_eq]
  cases h : decodeFrom 0 s.blkR.toList <;> simp [clearAcc, goto]

/-- KEY_SEED, once (R208). -/
theorem keySeed_eq (s : State) :
    keySeed s =
      { s with
        subkeys := (((s.subkeys.set 0 (seedWindow s.keyHigh s.keyLow).k0).set 1
          (seedWindow s.keyHigh s.keyLow).k1).set 2 (seedWindow s.keyHigh s.keyLow).k2).set 3
          (seedWindow s.keyHigh s.keyLow).k3
        z := constZ0, n := 4, phase := .keyExpand } := by
  simp [keySeed, writeSubkey, goto]

/-- KEY_EXPAND, once, for the values of `n` the phase runs with (R209). -/
theorem keyExpand_eq (s : State) (low : 4 ≤ s.n.toNat) (high : s.n.toNat ≤ 43) :
    keyExpand s =
      { s with
        subkeys := s.subkeys.set s.n.toNat
          (nextSubkey s.z s.subkeys[s.n.toNat - 4] s.subkeys[s.n.toNat - 3] s.subkeys[s.n.toNat - 1])
        z := s.z >>> 1, n := s.n + 1
        phase := if s.n = 43 then .blockDecode else .keyExpand } := by
  have r4 := readSubkey_at (i := s.n - 4) (j := s.n.toNat - 4) s (by omega) (by bv_omega)
  have r3 := readSubkey_at (i := s.n - 3) (j := s.n.toNat - 3) s (by omega) (by bv_omega)
  have r1 := readSubkey_at (i := s.n - 1) (j := s.n.toNat - 1) s (by omega) (by bv_omega)
  simp only [keyExpand, r4, r3, r1]
  simp [goto, writeSubkey, show s.n.toNat < 44 by omega]

/-- ROUND, ENCRYPT form, once (R212). -/
theorem roundEncrypt_eq (s : State) (high : s.n.toNat ≤ 43) :
    roundEncrypt s =
      { s with
        left := s.right ^^^ roundF s.left ^^^ s.subkeys[s.n.toNat]
        right := s.left
        n := s.n + 1
        phase := if s.n = 43 then .reassemble else .round } := by
  simp [roundEncrypt, roundWith, goto, setBlockState, encryptRound, State.blockState, readSubkey,
    show s.n.toNat < 44 by omega]

/-- ROUND, DECRYPT form, once (R213). -/
theorem roundDecrypt_eq (s : State) (high : s.n.toNat ≤ 43) :
    roundDecrypt s =
      { s with
        right := s.left ^^^ roundF s.right ^^^ s.subkeys[43 - s.n.toNat]
        left := s.right
        n := s.n + 1
        phase := if s.n = 43 then .reassemble else .round } := by
  have r := readSubkey_at (i := 43 - s.n) (j := 43 - s.n.toNat) s (by omega) (by bv_omega)
  simp only [roundDecrypt, roundWith, r]
  simp [goto, setBlockState, decryptRound, State.blockState]

/-- Taking both strings of a command onto the latches (R206, R82). -/
theorem acceptCommand_of_length (op : BitVec 1) (block : HexBlock) (key : HexKey) (s : State) :
    acceptCommand op block.toList key.toList s = accept op block key s := by
  obtain ⟨⟨b⟩, hb⟩ := block
  obtain ⟨⟨k⟩, hk⟩ := key
  simp at hb hk
  simp [acceptCommand, toHexBlock, toHexKey, hb, hk]

/-- A command byte decodes to its command bit (R81). -/
theorem commandBit_encodeOp : ∀ op : BitVec 1, commandBit (encodeOp op) = some op := by decide

/-- The bytes of a command decode to it (R81, R82). -/
theorem decode_command (op : BitVec 1) (block key : Text) (rest : List Byte)
    (hb : block.length = 16) (hk : key.length = 32) :
    decode (encodeOp op :: (block ++ key) ++ rest) = .ok (decodeCommand op block key, rest) := by
  have len : ¬ (block ++ key ++ rest).length < operandChars := by
    simp only [List.length_append, operandChars]; omega
  have t : (block ++ key ++ rest).take 16 = block := by simp [hb]
  have d : ((block ++ key ++ rest).drop 16).take 32 = key := by
    simp [hb, hk]
  have r : (block ++ key ++ rest).drop operandChars = rest := by
    simp [List.drop_append, operandChars, hb, hk]
  rw [List.cons_append]
  simp only [decode, commandBit_encodeOp, if_neg len, t, d, r]

/-- The command the next step works on: that of the ports, or the latched one (R202, R35). -/
theorem fetchCommand_eq (s : State) :
    fetchCommand s = .ok
      (if s.phase.accepting then decodeCommand s.ports.op s.ports.blockIn.toList s.ports.keyIn.toList
       else decodeCommand s.opR s.blkR.toList s.keyR.toList) := by
  have fetched (op : BitVec 1) (b : HexBlock) (k : HexKey) :
      decode (encodeOp op :: (b.toList ++ k.toList)) = .ok (decodeCommand op b.toList k.toList, []) := by
    simpa using decode_command op b.toList k.toList [] (by simp) (by simp)
  unfold fetchCommand fetchBytes
  cases s.phase.accepting <;> simp [portBytes, latchedBytes, fetched]

/-- Running a command is one micro-step of it (R205). -/
theorem exec_decodeCommand (op : BitVec 1) (block key : Text) (s : State) :
    exec (decodeCommand op block key) s =
      .next (commandStep op (if op = 0 then splitEncrypt else splitDecrypt)
        (if op = 0 then roundEncrypt else roundDecrypt) block key s) := by
  have h : op = 0 ∨ op = 1 := by revert op; decide
  rcases h with rfl | rfl <;> rfl

/-- The state before the end of a step with `rst = 0`: hold, ACCEPT, or the latched command's micro-step. -/
def microStep (s : State) : State :=
  if s.phase.accepting then
    if s.ports.start then accept s.ports.op s.ports.blockIn s.ports.keyIn s else s
  else
    commandStep s.opR (if s.opR = 0 then splitEncrypt else splitDecrypt)
      (if s.opR = 0 then roundEncrypt else roundDecrypt) s.blkR.toList s.keyR.toList s

/-- Everything a step can do (R205). -/
theorem step_eq (s : State) :
    step s = .next (endStep (if s.ports.rst then resetRegisters s else microStep s)) := by
  unfold step sequencerStep microStep
  cases s.ports.rst
  · cases hp : s.phase.accepting <;> cases s.ports.start <;>
      simp [fetchCommand_eq, hp, exec_decodeCommand, finishStep]
    have acc : ∀ p : Phase, p.accepting = true → p = .idle ∨ p = .encoded ∨ p = .failed := by
      intro p; cases p <;> simp [Phase.accepting]
    rcases acc s.phase hp with h | h | h <;> simp [commandStep, h, acceptCommand_of_length]
  · rfl

/-- A step from a phase of the sequencer with `rst = 0`, by its phase. -/
theorem microStep_busy {s : State} (h : s.phase.accepting = false) :
    microStep s =
      commandStep s.opR (if s.opR = 0 then splitEncrypt else splitDecrypt)
        (if s.opR = 0 then roundEncrypt else roundDecrypt) s.blkR.toList s.keyR.toList s := by
  simp [microStep, h]

/-- No request in an accepting phase: nothing happens (R216). -/
theorem microStep_hold {s : State} (h : s.phase.accepting = true) (hs : s.ports.start = false) :
    microStep s = s := by simp [microStep, h, hs]

/-- A request in an accepting phase (R206). -/
theorem microStep_accept {s : State} (h : s.phase.accepting = true) (hs : s.ports.start = true) :
    microStep s = accept s.ports.op s.ports.blockIn s.ports.keyIn s := by simp [microStep, h, hs]

/-- The step of each busy phase (R30, R205). -/
theorem microStep_keyDecode {s : State} (h : s.phase = .keyDecode) : microStep s = keyDecode s := by
  simp [microStep, Phase.accepting, commandStep, h]
theorem microStep_keySeed {s : State} (h : s.phase = .keySeed) : microStep s = keySeed s := by
  simp [microStep, Phase.accepting, commandStep, h]
theorem microStep_keyExpand {s : State} (h : s.phase = .keyExpand) : microStep s = keyExpand s := by
  simp [microStep, Phase.accepting, commandStep, h]
theorem microStep_blockDecode {s : State} (h : s.phase = .blockDecode) :
    microStep s = blockDecode s := by
  simp [microStep, Phase.accepting, commandStep, h]
theorem microStep_split {s : State} (h : s.phase = .split) :
    microStep s = if s.opR = 0 then splitEncrypt s else splitDecrypt s := by
  by_cases ho : s.opR = 0 <;> simp only [microStep, Phase.accepting, commandStep, h, ho] <;> rfl
theorem microStep_round {s : State} (h : s.phase = .round) :
    microStep s = if s.opR = 0 then roundEncrypt s else roundDecrypt s := by
  by_cases ho : s.opR = 0 <;> simp only [microStep, Phase.accepting, commandStep, h, ho] <;> rfl
theorem microStep_reassemble {s : State} (h : s.phase = .reassemble) :
    microStep s = reassemble s := by
  simp [microStep, Phase.accepting, commandStep, h]
theorem microStep_encode {s : State} (h : s.phase = .encode) : microStep s = encodeResult s := by
  simp [microStep, Phase.accepting, commandStep, h]

/-- A micro-step drives no input port: they are the host's (R200). -/
theorem microStep_ports (s : State) :
    (microStep s).ports = s.ports ∧ (microStep s).script = s.script := by
  cases hp : s.phase
  case idle | encoded | failed =>
    cases hs : s.ports.start
    · rw [microStep_hold (by simp [hp, Phase.accepting]) hs]; simp
    · rw [microStep_accept (by simp [hp, Phase.accepting]) hs]; simp
  case keyDecode =>
    rw [microStep_keyDecode hp, keyDecode_eq]
    cases decodeKey s.keyR.toList <;> simp
  case blockDecode =>
    rw [microStep_blockDecode hp, blockDecode_eq]
    cases decodeHex s.blkR.toList <;> simp
  case keySeed => rw [microStep_keySeed hp, keySeed_eq]; simp
  case keyExpand => rw [microStep_keyExpand hp, keyExpand]; simp
  case split => rw [microStep_split hp]; split <;> simp [splitEncrypt, splitDecrypt, splitWith]
  case round => rw [microStep_round hp]; split <;> simp [roundEncrypt, roundDecrypt, roundWith]
  case reassemble => rw [microStep_reassemble hp, reassemble]; simp
  case encode => rw [microStep_encode hp, encodeResult]; simp

/-- A run of one step more is a step and then a run. -/
theorem runFor_succ (k : Nat) (s : State) :
    runFor (k + 1) s =
      runFor k (endStep (if s.ports.rst then resetRegisters s else microStep s)) := by
  have h : Sys2Proof.core.step s = _ := step_eq s
  simp only [runFor, Host.Core.run]
  rw [h]

/-- A run of no step. -/
theorem runFor_zero (s : State) : runFor 0 s = .next s := rfl

end Sys2Proof.Machine
end

