-- ==== Sys2Proof/Tests/Slice0.lean ====
section
/-! SUPPORT. Tests: the WellFormed smoke test, decoding from words written out of the spec, the spec's own
vectors, one step at a time, and a witness for the hypotheses of every statement that has some.
A string is written as the bits of its port (R82): the ASCII codes of its characters, offset 0 first. -/

open Sys2Proof Sys2Proof.Machine

namespace Sys2Proof.Tests

set_option Elab.async false

/-- Sixteen characters from their port bits. -/
def block (bits : BitVec 128) : Text := unpackText 16 bits

/-- Thirty-two characters from their port bits. -/
def key (bits : BitVec 256) : Text := unpackText 32 bits

/-- What a stopped or finished step shows: a field of the next state, or nothing. -/
def seen {α : Type} (f : State → α) : Host.Outcome State Fault Refusal → Option α
  | .next t => some (f t)
  | .fault _ => none
  | .refused _ => none

/-- `PN` of 95_test_vectors.md, 756e64206c696b65; its port bits are those of section 3 there. -/
def pn : BitVec 128 := 0x37353665363432303663363936623635

/-- `KN` of 95_test_vectors.md, 0001020308090a0b1011121318191a1b; its port bits are those of section 3 there. -/
def kn : BitVec 256 := 0x3030303130323033303830393061306231303131313231333138313931613162

/-- The ciphertext of V-PUB, 44c8fc20b9dfa07a. -/
def cn : BitVec 128 := 0x34346338666332306239646661303761

/-- `PW` of 95_test_vectors.md, 656b696c20646e75. -/
def pw : BitVec 128 := 0x36353662363936633230363436653735

/-- `PN` with its last character `g` (0x67), an illegal code (R88). -/
def badBlock : BitVec 128 := 0x37353665363432303663363936623667

/-- `KN` with its first character `G` (0x47), an illegal code (R88). -/
def badKey : BitVec 256 := 0x4730303130323033303830393061306231303131313231333138313931613162

/-- A state at a phase and a count, with the strings latched and on the ports. -/
def atPhase (phase : Phase) (n : Counter) (op : BitVec 1) (b : BitVec 128) (k : BitVec 256) : State :=
  { State.reset with
    phase := phase, n := n, opR := op, blkR := blockOfBits b, keyR := keyOfBits k
    done := phase == .encoded || phase == .failed, err := phase == .failed
    ports := Ports.ofBits false true op b k }

/-- The same with nothing requested. -/
def quiet (phase : Phase) : State := { atPhase phase 0 0 pn kn with ports := Ports.rest }

/-- With the decoded halves of `KN` in their registers. -/
def keyed (phase : Phase) (n : Counter) : State :=
  { atPhase phase n 0 pn kn with keyHigh := 0x0001020308090a0b, keyLow := 0x1011121318191a1b }

/-- With the seeds of `KN` and `z` as KEY_SEED leaves them, at KEY_EXPAND. -/
def seeded (n : Counter) : State :=
  { keyed .keyExpand n with
    z := 0xfc2ce51207a635db
    subkeys := Vector.ofFn fun j : Fin 44 =>
      ([0x03020100, 0x0b0a0908, 0x13121110, 0x1b1a1918] : List Word32).getD j.val 0 }

/-- At SPLIT with a decoded block. -/
def decoded (op : BitVec 1) (state : Word64) : State :=
  { atPhase .split 44 op pn kn with state64 := state }

/-- At ROUND with one subkey in its place and zeros elsewhere. -/
def rounding (op : BitVec 1) (n : Counter) (left right : Word32) (place : Nat) (k : Word32) : State :=
  { atPhase .round n op pn kn with
    left := left, right := right
    subkeys := Vector.ofFn fun j : Fin 44 => if j.val = place then k else 0 }

/-! ### WellFormed refuses ill-formed terms (R80, R82) -/

theorem test_encrypt_short_block_is_ill_formed :
    ¬ (Instr.encrypt (List.replicate 15 0x30) (List.replicate 32 0x30)).WellFormed := by decide

theorem test_encrypt_short_key_is_ill_formed :
    ¬ (Instr.encrypt (List.replicate 16 0x30) (List.replicate 31 0x30)).WellFormed := by decide

theorem test_encrypt_port_strings_are_well_formed :
    (Instr.encrypt (block pn) (key kn)).WellFormed := by decide

theorem test_decrypt_short_block_is_ill_formed :
    ¬ (Instr.decrypt (List.replicate 15 0x30) (List.replicate 32 0x30)).WellFormed := by decide

theorem test_decrypt_short_key_is_ill_formed :
    ¬ (Instr.decrypt (List.replicate 16 0x30) (List.replicate 31 0x30)).WellFormed := by decide

theorem test_decrypt_port_strings_are_well_formed :
    (Instr.decrypt (block pn) (key kn)).WellFormed := by decide

/-! ### Decoding, from the words of R81 and R84 -/

theorem test_decode_char_0 : decodeTableWord 8 0b00110000 = some .hexChar0 := by decide
theorem test_decode_char_1 : decodeTableWord 8 0b00110001 = some .hexChar1 := by decide
theorem test_decode_char_2 : decodeTableWord 8 0b00110010 = some .hexChar2 := by decide
theorem test_decode_char_3 : decodeTableWord 8 0b00110011 = some .hexChar3 := by decide
theorem test_decode_char_4 : decodeTableWord 8 0b00110100 = some .hexChar4 := by decide
theorem test_decode_char_5 : decodeTableWord 8 0b00110101 = some .hexChar5 := by decide
theorem test_decode_char_6 : decodeTableWord 8 0b00110110 = some .hexChar6 := by decide
theorem test_decode_char_7 : decodeTableWord 8 0b00110111 = some .hexChar7 := by decide
theorem test_decode_char_8 : decodeTableWord 8 0b00111000 = some .hexChar8 := by decide
theorem test_decode_char_9 : decodeTableWord 8 0b00111001 = some .hexChar9 := by decide
theorem test_decode_char_a : decodeTableWord 8 0b01100001 = some .hexCharA := by decide
theorem test_decode_char_b : decodeTableWord 8 0b01100010 = some .hexCharB := by decide
theorem test_decode_char_c : decodeTableWord 8 0b01100011 = some .hexCharC := by decide
theorem test_decode_char_d : decodeTableWord 8 0b01100100 = some .hexCharD := by decide
theorem test_decode_char_e : decodeTableWord 8 0b01100101 = some .hexCharE := by decide
theorem test_decode_char_f : decodeTableWord 8 0b01100110 = some .hexCharF := by decide

theorem test_decode_encrypt : decode (0b00000000 :: (block pn ++ key kn)) = .ok (.encrypt (block pn) (key kn), []) := by
  rfl
theorem test_decode_decrypt : decode (0b00000001 :: (block cn ++ key kn)) = .ok (.decrypt (block cn) (key kn), []) := by
  rfl
theorem test_decode_table_words_of_commands :
    decodeTableWord 8 0b0 = some (.encrypt (List.replicate 16 0) (List.replicate 32 0)) ∧
    decodeTableWord 8 0b1 = some (.decrypt (List.replicate 16 0) (List.replicate 32 0)) := by decide
/-- The codes just outside the table, and upper case (R88, R130). -/
theorem test_decode_refuses_neighbours :
    decodeTableWord 8 0x2f = none ∧ decodeTableWord 8 0x3a = none ∧ decodeTableWord 8 0x60 = none ∧
    decodeTableWord 8 0x67 = none ∧ decodeTableWord 8 0x41 = none ∧ decodeTableWord 8 0x02 = none := by decide
theorem test_decode_needs_its_operands : decode (0b0 :: block pn) = .error .shortOperands := by rfl
theorem test_decode_of_nothing : decode [] = .error .noBytes := by rfl
/-- Exactly sixteen of the 256 codes are characters (R84, R88). -/
theorem test_sixteen_characters :
    ((List.range 256).filter fun c => (decodeChar (BitVec.ofNat 8 c)).isSome).length = 16 := by decide +kernel

/-! ### Word primitives: rows of 95_test_vectors.md section 2 -/

theorem test_primitives_12345678 :
    rotl1 0x12345678 = 0x2468acf0 ∧ rotl2 0x12345678 = 0x48d159e0 ∧ rotl8 0x12345678 = 0x34567812 ∧
    rotr1 0x12345678 = 0x091a2b3c ∧ rotr3 0x12345678 = 0x02468acf ∧ rotr4 0x12345678 = 0x81234567 ∧
    rearrangeBytes 0x12345678 = 0x78563412 ∧ roundF 0x12345678 = 0x6c9171f0 := by decide
theorem test_primitives_deadbeef :
    rotl1 0xdeadbeef = 0xbd5b7ddf ∧ rotl2 0xdeadbeef = 0x7ab6fbbf ∧ rotl8 0xdeadbeef = 0xadbeefde ∧
    rotr1 0xdeadbeef = 0xef56df77 ∧ rotr3 0xdeadbeef = 0xfbd5b7dd ∧ rotr4 0xdeadbeef = 0xfdeadbee ∧
    rearrangeBytes 0xdeadbeef = 0xefbeadde ∧ roundF 0xdeadbeef = 0xd7ac9661 := by decide
theorem test_primitives_80000000 :
    rotl1 0x80000000 = 1 ∧ rotr1 0x00000001 = 0x80000000 ∧ rearrangeBytes 0x00000001 = 0x01000000 ∧
    roundF 0x80000000 = 2 ∧ roundF 0xffffffff = 0 := by decide

/-! ### Codec: rows H4 to H28 of 95_test_vectors.md section 3 -/

theorem test_decode_hex :
    decodeHex (unpackText 16 (0x30313233343536373839616263646566 : BitVec 128)) = some 0x0123456789abcdef ∧
    decodeHex (unpackText 16 (0x38303030303030303030303030303030 : BitVec 128)) = some 0x8000000000000000 ∧
    decodeHex (unpackText 16 (0x30313233343536373839414243444546 : BitVec 128)) = none ∧
    decodeHex (unpackText 16 (0x30783233343536373839616263646566 : BitVec 128)) = none ∧
    decodeHex (unpackText 15 (0x313233343536373839616263646566 : BitVec 120)) = none ∧
    decodeHex (unpackText 17 (0x3030313233343536373839616263646566 : BitVec 136)) = none := by
  decide +kernel
theorem test_decode_key_halves :
    decodeHexKeyLow (unpackText 32 (0x3162316131393138313331323131313030623061303930383033303230313030 : BitVec 256)) = some 0x0b0a090803020100 ∧
    decodeHexKeyHigh (unpackText 32 (0x3162316131393138313331323131313030623061303930383033303230313030 : BitVec 256)) = some 0x1b1a191813121110 ∧
    decodeHexKeyLow (unpackText 32 (0x7a7a7a7a7a7a7a7a7a7a7a7a7a7a7a7a30623061303930383033303230313030 : BitVec 256)) = some 0x0b0a090803020100 ∧
    decodeHexKeyLow (unpackText 31 (0x31623161313931383133313231313130306230613039303830333032303130 : BitVec 248)) = none := by
  decide +kernel
theorem test_encode_hex :
    encodeHex 0x00000000000000ff = unpackText 16 (0x30303030303030303030303030306666 : BitVec 128) ∧
    encodeHex 0xfedcba9876543210 = unpackText 16 (0x66656463626139383736353433323130 : BitVec 128) ∧
    encodeHex 0x44c8fc20b9dfa07a = unpackText 16 (0x34346338666332306239646661303761 : BitVec 128) := by
  decide +kernel
/-- Port bits of `PN` and `KN` (95_test_vectors.md section 3). -/
theorem test_port_bits :
    packText 128 (unpackText 16 pn) = 0x37353665363432303663363936623635 ∧
    (unpackText 16 pn).head? = some 0x37 ∧ (unpackText 32 kn).getLast? = some 0x62 := by decide +kernel

/-! ### Key schedule and the two commands (95_test_vectors.md sections 4 and 5) -/

theorem test_schedule_of_kn :
    (keySchedule (key kn)).map (fun ks => (ks.take 6, ks.drop 41)) =
      some ([0x03020100, 0x0b0a0908, 0x13121110, 0x1b1a1918, 0x70a011c3, 0xb770ec49],
        [0x719e3f1c, 0x0c1cf793, 0x15df4696]) := by decide +kernel
/-- V-PUB, V1 and V2. -/
theorem test_published_vector :
    encryptText (block pn) (key kn) = some (block cn) ∧ decryptText (block cn) (key kn) = some (block pw) := by
  decide +kernel
/-- V3 and V6. -/
theorem test_more_vectors :
    encryptText (block pw) (key 0x3162316131393138313331323131313030623061303930383033303230313030) = some (block 0x63316636643166613137313831376364) ∧
    decryptText (block 0x30303030303030303030303030303030) (key 0x3030303030303030303030303030303030303030303030303030303030303030) = some (block 0x36373966303463326432393366303237) := by
  decide +kernel
theorem test_bswap_text : bswapText (block pn) = block pw := by decide +kernel
theorem test_commands_reject :
    encryptText (block badBlock) (key kn) = none ∧ decryptText (block cn) (key badKey) = none := by decide +kernel

/-! ### One step -/

/-- The example of R206. -/
theorem test_step_accept :
    seen (fun t => (t.phase, t.opR, t.blkR == blockOfBits pn)) (step (atPhase .idle 0 0 pn kn)) =
      some (.keyDecode, 0, true) := by decide +kernel
/-- The example of R207. -/
theorem test_step_key_decode :
    seen (fun t => (t.keyHigh, t.keyLow, t.phase, t.acc)) (step (atPhase .keyDecode 0 0 pn kn)) =
      some (0x0001020308090a0b, 0x1011121318191a1b, .keySeed, 0) := by decide +kernel
theorem test_step_bad_key :
    seen (fun t => (t.keyHigh, t.err, t.done, t.phase)) (step (atPhase .keyDecode 0 0 pn badKey)) =
      some (0, true, true, .failed) := by decide +kernel
/-- The example of R208. -/
theorem test_step_key_seed :
    seen (fun t => (t.subkeys.toList.take 5, t.z, t.n)) (step (keyed .keySeed 0)) =
      some ([0x03020100, 0x0b0a0908, 0x13121110, 0x1b1a1918, 0], 0xfc2ce51207a635db, 4) := by decide +kernel
/-- The example of R209. -/
theorem test_step_key_expand :
    seen (fun t => (t.subkeys.toList[4]?, t.z, t.n, t.phase)) (step (seeded 4)) =
      some (some 0x70a011c3, 0x7e16728903d31aed, 5, .keyExpand) := by decide +kernel
/-- The example of R210. -/
theorem test_step_block_decode :
    seen (fun t => (t.state64, t.phase)) (step (atPhase .blockDecode 44 0 pn kn)) =
      some (0x756e64206c696b65, .split) := by decide +kernel
theorem test_step_bad_block :
    seen (fun t => (t.err, t.done, t.phase)) (step (atPhase .blockDecode 44 1 badBlock kn)) =
      some (true, true, .failed) := by decide +kernel
/-- The example of R211, and its DECRYPT form (V2). -/
theorem test_step_split :
    seen (fun t => (t.left, t.right, t.n)) (step (decoded 0 0x756e64206c696b65)) =
      some (0x656b696c, 0x20646e75, 0) ∧
    seen (fun t => (t.left, t.right, t.n)) (step (decoded 1 0x44c8fc20b9dfa07a)) =
      some (0x44c8fc20, 0xb9dfa07a, 0) := by decide +kernel
/-- The example of R212, and the last round of V1. -/
theorem test_step_round_encrypt :
    seen (fun t => (t.left, t.right, t.n)) (step (rounding 0 0 0x656b696c 0x20646e75 0 0x03020100)) =
      some (0xfc8b8a84, 0x656b696c, 1) ∧
    seen (fun t => (t.left, t.right, t.phase)) (step (rounding 0 43 0xb9dfa07a 0xe5c97bed 43 0x15df4696)) =
      some (0x44c8fc20, 0xb9dfa07a, .reassemble) := by decide +kernel
/-- The example of R213, and the last round of V2. -/
theorem test_step_round_decrypt :
    seen (fun t => (t.left, t.right, t.n)) (step (rounding 1 0 0x44c8fc20 0xb9dfa07a 43 0x15df4696)) =
      some (0xb9dfa07a, 0xe5c97bed, 1) ∧
    seen (fun t => (t.left, t.right, t.phase)) (step (rounding 1 43 0xfc8b8a84 0x656b696c 0 0x03020100)) =
      some (0x656b696c, 0x20646e75, .reassemble) := by decide +kernel
/-- The example of R214. -/
theorem test_step_reassemble :
    seen (fun t => (t.state64, t.phase))
      (step { atPhase .reassemble 44 0 pn kn with left := 0x44c8fc20, right := 0xb9dfa07a }) =
      some (0x44c8fc20b9dfa07a, .encode) := by decide +kernel
/-- The example of R215. -/
theorem test_step_encode :
    seen (fun t => (t.outputs.blockOut, t.done, t.err, t.phase, t.hostResult == some (block cn)))
      (step { atPhase .encode 44 0 pn kn with state64 := 0x44c8fc20b9dfa07a }) =
      some (cn, true, false, .encoded, true) := by decide +kernel
/-- R216, and R202: with `start = 0` nothing is latched. -/
theorem test_step_hold :
    seen (fun t => (t.phase, t.done, t.blkR == blockOfBits pn)) (step (quiet .encoded)) =
      some (.encoded, true, true) := by decide +kernel
/-- R270: reset wins over a request. -/
theorem test_step_reset :
    seen (fun t => (t.phase, t.done, t.err, t.busy))
      (step { atPhase .failed 0 0 pn kn with ports := Ports.ofBits true true 0 pn kn }) =
      some (.idle, false, false, false) := by decide +kernel
/-- A character takes its place behind those already read (R132). -/
theorem test_hex_char :
    seen State.acc (exec .hexChar5 { State.reset with acc := 0x7 }) = some 0x75 ∧
    seen State.acc (exec .hexCharE { State.reset with acc := 0x756 }) = some 0x756e ∧
    seen State.acc (exec .hexChar0 { State.reset with acc := 0xf000000000000000 }) = some 0 := by decide
/-- A placed character is the one the next step decodes (R84, log 7). -/
theorem test_placed_char :
    seen State.state64 (step (State.reset.withFetchWord 8 0x63)) = some 12 := by decide +kernel
/-- A placed command is the one the next step accepts (R206, log 7). -/
theorem test_placed_command :
    seen (fun t => (t.opR, t.phase)) (step (State.reset.withFetchWord 8 1)) = some (1, .keyDecode) := by
  decide +kernel

/-! ### Witnesses: every hypothesis of every statement that has some, met together -/

theorem step_next (s : State) : ∃ t, step s = .next t := ⟨_, step_eq s⟩

theorem witness_EncodedInstructionDecodesBack :
    (Instr.encrypt (block pn) (key kn)).WellFormed ∧ (Instr.decrypt (block cn) (key kn)).WellFormed ∧
    Instr.hexCharF.WellFormed := by decide
theorem witness_DecodedBytesAreTheEncoding :
    decode (encodeOp 1 :: (block cn ++ key kn)) = .ok (.decrypt (block cn) (key kn), []) ∧
    decode [0x66, 0x00] = .ok (.hexCharF, [0x00]) := ⟨rfl, rfl⟩
theorem witness_RotationsMoveEveryBit :
    ∃ r q : RotAmount, r.val = 1 ∧ q.val = 31 ∧ (0 : Nat) < 32 ∧ (31 : Nat) < 32 :=
  ⟨⟨1, by decide⟩, ⟨31, by decide⟩, rfl, rfl, by decide, by decide⟩
theorem witness_RotationsAreInverse :
    (∃ r q : RotAmount, r.val = 1 ∧ q.val = 32 - r.val) ∧ ∃ r q : RotAmount, r.val = 31 ∧ q.val = 32 - r.val :=
  ⟨⟨⟨1, by decide⟩, ⟨31, by decide⟩, rfl, rfl⟩, ⟨31, by decide⟩, ⟨1, by decide⟩, rfl, rfl⟩
theorem witness_RearrangeBytesReversesTheBytes : (0 : Nat) < 4 ∧ (3 : Nat) < 4 := by decide
theorem witness_RoundFunctionBitByBit : (0 : Nat) < 32 ∧ (31 : Nat) < 32 := by decide
theorem witness_DecodedNibbleIsItsCharacter :
    decodeHex (block pn) = some 0x756e64206c696b65 ∧ (0 : Nat) < 16 ∧ (15 : Nat) < 16 := by decide +kernel
theorem witness_CodecRoundTrip : ValidBlock (block pn) ∧ ValidBlock (List.replicate 16 0x66) := by
  decide +kernel
theorem witness_ByteStreamView :
    decodeHex (block pn) = some 0x756e64206c696b65 ∧ (7 : Nat) < 8 ∧ (3 : Nat) < 4 := by decide +kernel
theorem witness_ScheduleSatisfiesTheRecurrence :
    decodeKey (key kn) = some (0x0001020308090a0b, 0x1011121318191a1b) ∧
    (4 : Nat) ≤ 4 ∧ (4 : Nat) < 44 ∧ (4 : Nat) ≤ 43 ∧ (43 : Nat) < 44 := by decide +kernel
theorem witness_FourSubkeysDetermineTheKey :
    ∃ ks, keySchedule (key kn) = some ks ∧ (0 : Nat) ≤ 40 ∧ (40 : Nat) ≤ 40 ∧
      (ks.drop 40).take 4 = [0x18199c02, 0x719e3f1c, 0x0c1cf793, 0x15df4696] :=
  ⟨scheduleOf 0x0001020308090a0b 0x1011121318191a1b, by decide +kernel⟩
theorem witness_CommandFailsExactlyOnInvalidStrings :
    commandText 0 (block pn) (key kn) = some (block cn) ∧
    commandText 1 (block cn) (key kn) = some (block pw) := by decide +kernel
/-- For the three statements about the commands on valid strings. -/
theorem witness_DecryptOfEncryptIsTheByteReversal : ValidBlock (block pn) ∧ ValidKey (key kn) := by
  decide +kernel
theorem witness_EncryptOfReversedDecryptIsTheBlock : ValidBlock (block cn) ∧ ValidKey (key kn) := by
  decide +kernel
theorem witness_CommandsAreBijections :
    ValidKey (key kn) ∧ ValidBlock (block pn) ∧ ValidBlock (block cn) ∧
    commandText 0 (block pn) (key kn) = some (block cn) := by decide +kernel
theorem witness_CommandsAreAccepted :
    (quiet .idle).phase = .idle ∧ (quiet .encoded).phase = .encoded ∧ (quiet .failed).phase = .failed := by
  decide
theorem witness_WrongLengthIsInvalidInput :
    (quiet .idle).phase = .idle ∧ (quiet .encoded).phase = .encoded ∧ (quiet .failed).phase = .failed ∧
    ((block pn).take 15).length ≠ 16 ∧ (key kn).length = 32 ∧
    (block pn).length = 16 ∧ ((key kn).take 31).length ≠ 32 ∧
    Instr.decrypt (block pn) ((key kn).take 31) ∈
      [Instr.encrypt (block pn) ((key kn).take 31), .decrypt (block pn) ((key kn).take 31)] := by
  decide +kernel
theorem witness_KeyDecodeStep :
    (atPhase .keyDecode 0 0 pn kn).phase = .keyDecode ∧
    validHex (atPhase .keyDecode 0 0 pn kn).keyR.toList 32 = true ∧
    (atPhase .keyDecode 0 1 pn badKey).phase = .keyDecode ∧
    validHex (atPhase .keyDecode 0 1 pn badKey).keyR.toList 32 = false := by decide +kernel
theorem witness_KeySeedStep : (keyed .keySeed 0).phase = .keySeed := by decide
theorem witness_KeyExpandStep :
    (seeded 4).phase = .keyExpand ∧ (seeded 4).n.toNat = 4 ∧ (4 : Nat) ≤ 4 ∧ (4 : Nat) < 44 ∧
    (seeded 43).phase = .keyExpand ∧ (seeded 43).n.toNat = 43 ∧ (4 : Nat) ≤ 43 ∧ (43 : Nat) < 44 := by decide
theorem witness_BlockDecodeStep :
    (atPhase .blockDecode 44 0 pn kn).phase = .blockDecode ∧
    validHex (atPhase .blockDecode 44 0 pn kn).blkR.toList 16 = true ∧
    (atPhase .blockDecode 44 1 badBlock kn).phase = .blockDecode ∧
    validHex (atPhase .blockDecode 44 1 badBlock kn).blkR.toList 16 = false := by decide +kernel
theorem witness_SplitStep : (decoded 0 1).phase = .split ∧ (decoded 1 1).phase = .split := by decide
theorem witness_RoundStep :
    (rounding 0 0 1 2 0 3).phase = .round ∧ (rounding 0 0 1 2 0 3).n.toNat = 0 ∧ (0 : Nat) < 44 ∧
    (rounding 1 43 1 2 0 3).phase = .round ∧ (rounding 1 43 1 2 0 3).n.toNat = 43 ∧ (43 : Nat) < 44 := by decide
theorem witness_ReassembleStep : (atPhase .reassemble 44 1 cn kn).phase = .reassemble := by decide
theorem witness_EncodeStep : (atPhase .encode 44 0 pn kn).phase = .encode := by decide

/-- A witness for each clause of the step relation, `rst = 0` with it. -/
theorem witness_StepRelation :
    (∀ p n op b k, (atPhase p n op b k).ports.rst = false) ∧
    ((atPhase .failed 0 1 pn kn).phase.accepting = true ∧ (atPhase .failed 0 1 pn kn).ports.start = true) ∧
    ((atPhase .keyDecode 0 0 pn kn).phase = .keyDecode ∧
      validHex (atPhase .keyDecode 0 0 pn kn).keyR.toList 32 = true) ∧
    ((atPhase .keyDecode 0 1 pn badKey).phase = .keyDecode ∧
      validHex (atPhase .keyDecode 0 1 pn badKey).keyR.toList 32 = false) ∧
    (atPhase .keySeed 0 0 pn kn).phase = .keySeed ∧
    ((atPhase .keyExpand 4 0 pn kn).phase = .keyExpand ∧ (atPhase .keyExpand 4 0 pn kn).n.toNat = 4) ∧
    ((atPhase .keyExpand 43 0 pn kn).phase = .keyExpand ∧ (atPhase .keyExpand 43 0 pn kn).n.toNat = 43) ∧
    ((atPhase .blockDecode 44 0 pn kn).phase = .blockDecode ∧
      validHex (atPhase .blockDecode 44 0 pn kn).blkR.toList 16 = true) ∧
    ((atPhase .blockDecode 44 1 badBlock kn).phase = .blockDecode ∧
      validHex (atPhase .blockDecode 44 1 badBlock kn).blkR.toList 16 = false) ∧
    ((atPhase .split 44 0 pn kn).phase = .split ∧ (atPhase .split 44 0 pn kn).opR = 0) ∧
    ((atPhase .split 44 1 pn kn).phase = .split ∧ (atPhase .split 44 1 pn kn).opR = 1) ∧
    ((atPhase .round 0 0 pn kn).phase = .round ∧ (atPhase .round 0 0 pn kn).opR = 0 ∧
      (atPhase .round 0 0 pn kn).n.toNat = 0) ∧
    ((atPhase .round 43 0 pn kn).opR = 0 ∧ (atPhase .round 43 0 pn kn).n.toNat = 43) ∧
    ((atPhase .round 0 1 pn kn).opR = 1 ∧ (atPhase .round 43 1 pn kn).opR = 1) ∧
    ((atPhase .reassemble 44 0 pn kn).phase = .reassemble ∧ (atPhase .encode 44 0 pn kn).phase = .encode) ∧
    ((quiet .encoded).ports.rst = false ∧ (quiet .encoded).phase.accepting = true ∧
      (quiet .encoded).ports.start = false) :=
  ⟨fun _ _ _ _ _ => rfl, by decide +kernel⟩

/-- An accepting phase with a command on the ports, and a busy one with a latched command. -/
theorem witness_StepRunsTheFetchedCommand :
    ((atPhase .idle 0 1 cn kn).ports.rst = false ∧ (atPhase .idle 0 1 cn kn).ports.start = true ∧
      decode (encodeOp (atPhase .idle 0 1 cn kn).ports.op ::
        ((atPhase .idle 0 1 cn kn).ports.blockIn.toList ++ (atPhase .idle 0 1 cn kn).ports.keyIn.toList)) =
        .ok (.decrypt (block cn) (key kn), []) ∧
      ∃ t, exec (.decrypt (block cn) (key kn)) (atPhase .idle 0 1 cn kn) = .next t) ∧
    ((decoded 0 1).ports.rst = false ∧ (decoded 0 1).phase.accepting = false ∧
      decode (encodeOp (decoded 0 1).opR :: ((decoded 0 1).blkR.toList ++ (decoded 0 1).keyR.toList)) =
        .ok (.encrypt (block pn) (key kn), []) ∧
      ∃ t, exec (.encrypt (block pn) (key kn)) (decoded 0 1) = .next t) :=
  ⟨⟨rfl, rfl, rfl, _, rfl⟩, rfl, rfl, rfl, _, rfl⟩

theorem witness_DecodeStepsRunTheirCharacters :
    (atPhase .blockDecode 44 0 pn kn).ports.rst = false ∧
    (charsOf (atPhase .blockDecode 44 0 pn kn).blkR.toList).isSome = true ∧
    (atPhase .keyDecode 0 0 pn kn).phase = .keyDecode ∧
    (charsOf ((atPhase .keyDecode 0 0 pn kn).keyR.toList.take 16)).isSome = true ∧
    (charsOf ((atPhase .keyDecode 0 0 pn kn).keyR.toList.drop 16)).isSome = true := by decide +kernel

theorem witness_PlacedWordIsRunNext :
    (0 : Nat) < 2 ∧ (1 : Nat) < 2 ∧ decodeChar 0x30 = some .hexChar0 ∧ decodeChar 0x66 = some .hexCharF := by
  decide

theorem witness_ResetStep :
    { atPhase .round 7 1 cn kn with ports := Ports.ofBits true true 1 cn kn }.ports.rst = true := rfl

/-- The host plans two more quiet steps. -/
theorem witness_HoldForAnyNumberOfSteps :
    { quiet .failed with script := [Ports.rest, Ports.rest] }.phase.accepting = true ∧
    { quiet .failed with script := [Ports.rest, Ports.rest] }.ports.start = false ∧
    { quiet .failed with script := [Ports.rest, Ports.rest] }.ports.rst = false ∧
    ∀ p ∈ [Ports.rest, Ports.rest], p.start = false ∧ p.rst = false := by decide

/-- A state for each row of the phase table; the states of `witness_StepRelation` are those of the others. -/
theorem witness_PhaseTable :
    (∃ t, step (quiet .idle) = .next t) ∧ (quiet .idle).ports.start = false ∧
    (∃ t, step (atPhase .encoded 9 0 pn kn) = .next t) ∧ (atPhase .encoded 9 0 pn kn).ports.start = true ∧
    (∃ t, step (atPhase .keyExpand 42 0 pn kn) = .next t) ∧ (atPhase .keyExpand 42 0 pn kn).n < 43 ∧
    (∃ t, step (atPhase .keyExpand 43 0 pn kn) = .next t) ∧ (atPhase .keyExpand 43 0 pn kn).n = 43 ∧
    (∃ t, step (atPhase .round 42 1 pn kn) = .next t) ∧ (atPhase .round 42 1 pn kn).n < 43 ∧
    (∃ t, step (atPhase .round 43 1 pn kn) = .next t) ∧ (atPhase .round 43 1 pn kn).n = 43 ∧
    (∃ t, step (atPhase .keyDecode 9 0 pn kn) = .next t) ∧ (∃ t, step (atPhase .keyDecode 9 0 pn badKey) = .next t) ∧
    (∃ t, step (atPhase .blockDecode 44 0 pn kn) = .next t) ∧
    (∃ t, step (atPhase .blockDecode 44 0 badBlock kn) = .next t) ∧
    (∃ t, step (atPhase .keySeed 9 0 pn kn) = .next t) ∧ (∃ t, step (atPhase .split 44 0 pn kn) = .next t) ∧
    (∃ t, step (atPhase .reassemble 44 0 pn kn) = .next t) ∧ ∃ t, step (atPhase .encode 44 0 pn kn) = .next t :=
  ⟨step_next _, rfl, step_next _, rfl, step_next _, by decide, step_next _, rfl, step_next _, by decide,
    step_next _, rfl, step_next _, step_next _, step_next _, step_next _, step_next _, step_next _, step_next _,
    step_next _⟩

theorem witness_InputsAreIgnoredWhileBusy :
    (atPhase .round 5 1 cn kn).busy = true ∧ (atPhase .round 5 1 cn kn).ports.rst = false ∧
    (Ports.ofBits false true 0 pn kn).rst = false ∧
    Ports.ofBits false true 0 pn kn ≠ (atPhase .round 5 1 cn kn).ports := by decide +kernel

/-- Each register changes at some step the table names for it. -/
theorem witness_RegistersAreWrittenByTheirStepsOnly :
    seen (fun t => (t.left != 1, t.right != 2, t.n != 0)) (step (rounding 0 0 1 2 0 3)) = some (true, true, true) ∧
    seen (fun t => t.state64 != 0) (step (atPhase .blockDecode 44 0 pn kn)) = some true ∧
    seen (fun t => (t.keyHigh != 0, t.keyLow != 0)) (step (atPhase .keyDecode 0 0 pn kn)) = some (true, true) ∧
    seen (fun t => (t.z != 0, t.subkeys[3] != 0)) (step (keyed .keySeed 0)) = some (true, true) ∧
    seen (fun t => t.subkeys[43] != 0) (step (seeded 43)) = some true ∧
    seen (fun t => (t.opR != 0, t.blkR != (quiet .failed).blkR, t.keyR != (quiet .failed).keyR, t.done != true, t.err != true))
      (step { quiet .failed with ports := Ports.ofBits false true 1 cn badKey }) = some (true, true, true, true, true) ∧
    seen (fun t => (t.blockOut != Vector.replicate 16 0, t.done != false)) (step (atPhase .encode 44 0 pn kn)) =
      some (true, true) ∧
    seen (fun t => t.err != false) (step (atPhase .keyDecode 0 0 pn badKey)) = some true ∧
    (quiet .failed).opR = 0 ∧ (rounding 0 0 1 2 0 3).ports.rst = false := by decide +kernel

theorem witness_OnlyTheDecodeStepsFail :
    (∃ t, step (atPhase .keyDecode 0 0 pn badKey) = .next t) ∧
    (∃ c ∈ (atPhase .keyDecode 0 0 pn badKey).keyR.toList, validChar c = false) ∧
    (∃ t, step (atPhase .blockDecode 44 0 badBlock kn) = .next t) ∧
    (∃ c ∈ (atPhase .blockDecode 44 0 badBlock kn).blkR.toList, validChar c = false) ∧
    seen State.phase (step (atPhase .keyDecode 0 0 pn badKey)) = some .failed :=
  ⟨step_next _, by decide +kernel, step_next _, by decide +kernel, by decide +kernel⟩

/-- The control invariant at the edges of the counter's ranges, and in the three accepting phases. -/
theorem witness_EveryStepKeepsTheControlInvariant :
    ControlInv (atPhase .keyExpand 4 0 pn kn) ∧ ControlInv (atPhase .keyExpand 43 0 pn kn) ∧
    ControlInv (atPhase .round 0 1 pn kn) ∧ ControlInv (atPhase .round 43 1 pn kn) ∧
    ControlInv (quiet .idle) ∧ ControlInv (quiet .encoded) ∧ ControlInv (quiet .failed) ∧
    ∃ t, step (atPhase .round 43 1 pn kn) = .next t :=
  ⟨by simp [ControlInv, FlagsAgree, CounterInRange, AccumulatorAtRest, atPhase, State.reset],
    by simp [ControlInv, FlagsAgree, CounterInRange, AccumulatorAtRest, atPhase, State.reset],
    by simp [ControlInv, FlagsAgree, CounterInRange, AccumulatorAtRest, atPhase, State.reset],
    by simp [ControlInv, FlagsAgree, CounterInRange, AccumulatorAtRest, atPhase, State.reset],
    by simp [ControlInv, FlagsAgree, CounterInRange, AccumulatorAtRest, quiet, atPhase, State.reset],
    by simp [ControlInv, FlagsAgree, CounterInRange, AccumulatorAtRest, quiet, atPhase, State.reset],
    by simp [ControlInv, FlagsAgree, CounterInRange, AccumulatorAtRest, quiet, atPhase, State.reset],
    step_next _⟩

/-- At ROUND with all subkeys of `KN`, and row `n` of V1 in the two registers. -/
def scheduled (n : Counter) (left right : Word32) : State :=
  { atPhase .round n 0 pn kn with
    left := left, right := right
    subkeys := ⟨⟨scheduleOf 0x0001020308090a0b 0x1011121318191a1b⟩, by simp [scheduleOf_length]⟩ }

/-- The datapath invariant in the first KEY_EXPAND, before the first and before the last round (V1), in
ENCODED with the result of V1, and in FAILED with an invalid key. -/
theorem witness_EveryStepKeepsTheDatapathCoherent :
    Coherent (seeded 4) ∧ Coherent (scheduled 0 0x656b696c 0x20646e75) ∧
    Coherent (scheduled 43 0xb9dfa07a 0xe5c97bed) ∧
    Coherent { quiet .encoded with blockOut := blockOfBits cn } ∧
    Coherent (atPhase .failed 0 0 pn badKey) ∧
    ∃ t, step (scheduled 43 0xb9dfa07a 0xe5c97bed) = .next t := by
  refine ⟨⟨by decide, by decide, by decide, scheduleOf 0x0001020308090a0b 0x1011121318191a1b, ?_, ?_⟩,
    ⟨by decide, ?_, 0x756e64206c696b65, ?_, ?_⟩, ⟨by decide, ?_, 0x756e64206c696b65, ?_, ?_⟩,
    (by decide +kernel : commandText 0 (blockOfBits pn).toList (keyOfBits kn).toList = some (blockOfBits cn).toList),
    (by decide +kernel : commandText 0 (blockOfBits pn).toList (keyOfBits badKey).toList = none), step_next _⟩
  all_goals decide +kernel

/-- Requested transactions: a valid one of each command, an invalid key, an invalid block. -/
theorem witness_Requested :
    Requested (atPhase .idle 0 0 pn kn) ∧ Requested (atPhase .encoded 9 1 cn kn) ∧
    Requested (atPhase .failed 9 0 pn badKey) ∧ Requested (atPhase .idle 9 1 badBlock kn) := by
  simp [Requested, NoReset, atPhase, State.reset, Phase.accepting, Ports.ofBits]
theorem witness_SuccessfulTransactionTakes91Steps :
    Requested (atPhase .encoded 9 1 cn kn) ∧
    commandText (atPhase .encoded 9 1 cn kn).ports.op (atPhase .encoded 9 1 cn kn).ports.blockIn.toList
      (atPhase .encoded 9 1 cn kn).ports.keyIn.toList = some (block pw) ∧
    (1 : Nat) ≤ 1 ∧ (90 : Nat) ≤ 90 :=
  ⟨witness_Requested.2.1, by decide +kernel⟩
theorem witness_BadKeyFailsAfter2Steps :
    Requested (atPhase .failed 9 0 pn badKey) ∧ ¬ ValidKey (atPhase .failed 9 0 pn badKey).ports.keyIn.toList :=
  ⟨witness_Requested.2.2.1, by decide +kernel⟩
theorem witness_BadBlockFailsAfter44Steps :
    Requested (atPhase .idle 9 1 badBlock kn) ∧ ValidKey (atPhase .idle 9 1 badBlock kn).ports.keyIn.toList ∧
    ¬ ValidBlock (atPhase .idle 9 1 badBlock kn).ports.blockIn.toList :=
  ⟨witness_Requested.2.2.2, by decide +kernel⟩
theorem witness_RegistersAfterASuccessfulTransaction :
    Requested (atPhase .idle 0 0 pn kn) ∧ ValidBlock (atPhase .idle 0 0 pn kn).ports.blockIn.toList ∧
    ValidKey (atPhase .idle 0 0 pn kn).ports.keyIn.toList :=
  ⟨witness_Requested.1, by decide +kernel⟩
/-- Two states that agree on the ports and on no other of these registers. -/
theorem witness_OutputsDependOnTheLatchedValuesOnly :
    Requested (atPhase .idle 0 0 pn kn) ∧
    Requested { scheduled 43 1 2 with phase := .failed, ports := (atPhase .idle 0 0 pn kn).ports } ∧
    { scheduled 43 1 2 with phase := .failed, ports := (atPhase .idle 0 0 pn kn).ports }.ports =
      (atPhase .idle 0 0 pn kn).ports ∧
    ValidBlock (atPhase .idle 0 0 pn kn).ports.blockIn.toList ∧
    ValidKey (atPhase .idle 0 0 pn kn).ports.keyIn.toList :=
  ⟨witness_Requested.1, by
    simp [Requested, NoReset, scheduled, atPhase, State.reset, Phase.accepting, Ports.ofBits], rfl, by decide +kernel⟩

end Sys2Proof.Tests
end

section
/-! SUPPORT. What a step can do: reset, or one of the rules R206 to R216 (44_interface_sequencer.md R205). -/

namespace Sys2Proof.Machine

/-- KEY_EXPAND for every value of `n`: the whole state but for which subkey it writes (R209). -/
theorem keyExpand_fields (s : State) :
    keyExpand s =
      { s with
        subkeys := (keyExpand s).subkeys, z := s.z >>> 1, n := s.n + 1
        phase := if s.n = 43 then .blockDecode else .keyExpand } := by
  apply State.ext_fields <;> simp [keyExpand]

/-- KEY_EXPAND changes no subkey but number `n` (R209). -/
theorem eq_n_of_keyExpand_subkeys_ne (s : State) {j : Nat} (h : j < 44)
    (hne : (keyExpand s).subkeys[j] ≠ s.subkeys[j]) : j = s.n.toNat := by
  by_contra hj
  refine hne ?_
  simp only [keyExpand, goto_subkeys, writeSubkey]
  split
  · simp [Ne.symm hj]
  · rfl

/-- KEY_SEED changes no subkey but the first four (R208). -/
theorem lt_four_of_seeded_ne (ks : Subkeys) (w : Window) {j : Nat} (h : j < 44)
    (hne : ((((ks.set 0 w.k0).set 1 w.k1).set 2 w.k2).set 3 w.k3)[j] ≠ ks[j]) : j < 4 := by
  by_contra hj
  refine hne ?_
  simp [show 3 ≠ j by omega, show 2 ≠ j by omega, show 1 ≠ j by omega, show 0 ≠ j by omega]

/-- The rules R206 to R216 as a relation between the registers before and after one step with `rst = 0`,
a constructor a rule; `step_cases` ties it to the step. -/
inductive Rule (s : State) : State → Prop
  | hold (hp : s.phase.accepting = true) (hs : s.ports.start = false) : Rule s s
  | accept (hp : s.phase.accepting = true) (hs : s.ports.start = true) :
      Rule s { s with
        opR := s.ports.op, blkR := s.ports.blockIn, keyR := s.ports.keyIn
        done := false, err := false, phase := .keyDecode }
  | keyDecode {high low : Word64} (hp : s.phase = .keyDecode)
      (hk : decodeKey s.keyR.toList = some (high, low)) :
      Rule s { s with keyHigh := high, keyLow := low, acc := 0, phase := .keySeed }
  | badKey (hp : s.phase = .keyDecode) (hk : decodeKey s.keyR.toList = none) :
      Rule s { s with done := true, err := true, phase := .failed }
  | keySeed (hp : s.phase = .keySeed) :
      Rule s { s with
        subkeys := (((s.subkeys.set 0 (seedWindow s.keyHigh s.keyLow).k0).set 1
          (seedWindow s.keyHigh s.keyLow).k1).set 2 (seedWindow s.keyHigh s.keyLow).k2).set 3
          (seedWindow s.keyHigh s.keyLow).k3
        z := constZ0, n := 4, phase := .keyExpand }
  | keyExpand (hp : s.phase = .keyExpand) :
      Rule s { s with
        subkeys := (keyExpand s).subkeys, z := s.z >>> 1, n := s.n + 1
        phase := if s.n = 43 then .blockDecode else .keyExpand }
  | blockDecode {v : Word64} (hp : s.phase = .blockDecode) (hb : decodeHex s.blkR.toList = some v) :
      Rule s { s with state64 := v, acc := 0, phase := .split }
  | badBlock (hp : s.phase = .blockDecode) (hb : decodeHex s.blkR.toList = none) :
      Rule s { s with done := true, err := true, phase := .failed }
  | split {b : BlockState} (hp : s.phase = .split)
      (hb : b = if s.opR = 0 then splitForEncrypt s.state64 else splitForDecrypt s.state64) :
      Rule s { s with left := b.left, right := b.right, n := 0, phase := .round }
  | round {b : BlockState} (hp : s.phase = .round)
      (hb : b = if s.opR = 0 then encryptRound s.blockState (readSubkey s.n s)
        else decryptRound s.blockState (readSubkey (43 - s.n) s)) :
      Rule s { s with
        left := b.left, right := b.right, n := s.n + 1
        phase := if s.n = 43 then .reassemble else .round }
  | reassemble (hp : s.phase = .reassemble) :
      Rule s { s with state64 := reassembleHalves s.blockState, phase := .encode }
  | encode (hp : s.phase = .encode) :
      Rule s { s with blockOut := encodeBlock s.state64, done := true, phase := .encoded }

/-- The micro-step of every phase follows one of the rules (R205). -/
theorem rule_microStep (s : State) : Rule s (microStep s) := by
  cases hp : s.phase
  case idle | encoded | failed =>
    have ha : s.phase.accepting = true := by rw [hp]; rfl
    cases hs : s.ports.start
    · rw [microStep_hold ha hs]; exact .hold ha hs
    · rw [microStep_accept ha hs]; exact .accept ha hs
  case keyDecode =>
    rw [microStep_keyDecode hp, keyDecode_eq]
    cases hk : decodeKey s.keyR.toList with
    | none => exact .badKey hp hk
    | some halves => exact .keyDecode hp hk
  case keySeed => rw [microStep_keySeed hp, keySeed_eq]; exact .keySeed hp
  case keyExpand => rw [microStep_keyExpand hp, keyExpand_fields]; exact .keyExpand hp
  case blockDecode =>
    rw [microStep_blockDecode hp, blockDecode_eq]
    cases hb : decodeHex s.blkR.toList with
    | none => exact .badBlock hp hb
    | some v => exact .blockDecode hp hb
  case split =>
    rw [microStep_split hp]
    split <;> rename_i ho
    · exact .split hp (if_pos ho).symm
    · exact .split hp (if_neg ho).symm
  case round =>
    rw [microStep_round hp]
    split <;> rename_i ho
    · exact .round hp (if_pos ho).symm
    · exact .round hp (if_neg ho).symm
  case reassemble => rw [microStep_reassemble hp]; exact .reassemble hp
  case encode => rw [microStep_encode hp]; exact .encode hp

/-- Everything a step can do: reset, or one of the rules, and then the end of the step (R205). -/
theorem step_cases {s t : State} (h : step s = .next t) :
    (s.ports.rst = true ∧ t = endStep (resetRegisters s)) ∨
      (s.ports.rst = false ∧ ∃ u, Rule s u ∧ t = endStep u) := by
  rw [step_eq] at h
  injection h with h
  cases hr : s.ports.rst <;> rw [hr] at h
  · exact .inr ⟨rfl, _, rule_microStep s, h.symm⟩
  · exact .inl ⟨rfl, h.symm⟩

/-- With `rst = 0` a step is a rule and then the end of the step (R205). -/
theorem rule_of_step {s t : State} (hr : s.ports.rst = false) (h : step s = .next t) :
    ∃ u, Rule s u ∧ t = endStep u := by
  obtain ⟨hr', -⟩ | ⟨-, hu⟩ := step_cases h
  · simp [hr] at hr'
  · exact hu

/-- A predicate that reset gives, every rule keeps and the end of a step keeps, every step keeps (R205). -/
theorem step_keeps {P : State → Prop} (hReset : ∀ s, P (resetRegisters s))
    (hRule : ∀ s u, P s → Rule s u → P u) (hEnd : ∀ s, P s → P (endStep s))
    {s t : State} (hs : P s) (h : step s = .next t) : P t := by
  obtain ⟨-, rfl⟩ | ⟨-, u, hu, rfl⟩ := step_cases h
  · exact hEnd _ (hReset s)
  · exact hEnd _ (hRule s u hs hu)

/-- With `rst = 0` a step is the micro-step and then the end of the step (R205). -/
theorem step_of_noReset {s : State} (h : s.ports.rst = false) : step s = .next (endStep (microStep s)) := by
  rw [step_eq, h]; rfl

end Sys2Proof.Machine
end

section
/-! SUPPORT. The control invariant (10_state.md R31, 20_memory.md R56), kept by every rule. -/

namespace Sys2Proof.Machine

/-- The accepting phases, by name (R28). -/
theorem accepting_iff (p : Phase) : p.accepting = true ↔ p = .idle ∨ p = .encoded ∨ p = .failed := by
  cases p <;> simp [Phase.accepting]

/-- Every rule leaves the flags as R31 says: those that enter ENCODED or FAILED set them, ACCEPT clears them. -/
theorem flagsAgree_rule {s u : State} (hs : FlagsAgree s) (hu : Rule s u) : FlagsAgree u := by
  obtain ⟨hdone, herr⟩ := hs
  cases hu with
  | hold => exact ⟨hdone, herr⟩
  | accept | badKey | badBlock => simp [FlagsAgree]
  | keyDecode hp | keySeed hp | blockDecode hp | split hp | reassemble hp | encode hp =>
    simp_all [FlagsAgree]
  | keyExpand hp | round hp => by_cases hn : s.n = 43 <;> simp_all [FlagsAgree]

/-- Below its last value 43 the counter goes up by one and stays in range (R30, R56). -/
theorem counter_succ {n : Counter} (h : n.toNat ≤ 43) (hn : n ≠ 43) :
    (n + 1).toNat = n.toNat + 1 ∧ n.toNat + 1 ≤ 43 := by
  have hne : n.toNat ≠ 43 := fun h => hn (BitVec.eq_of_toNat_eq h)
  exact ⟨by bv_omega, by omega⟩

/-- Every rule that leads to KEY_EXPAND or ROUND leaves `n` in the range of R56. -/
theorem counterInRange_rule {s u : State} (hs : CounterInRange s) (hu : Rule s u) : CounterInRange u := by
  obtain ⟨hexpand, hround⟩ := hs
  cases hu with
  | hold => exact ⟨hexpand, hround⟩
  | accept | keyDecode | badKey | keySeed | blockDecode | badBlock | split | reassemble | encode =>
    simp [CounterInRange]
  | keyExpand hp =>
    obtain ⟨low, high⟩ := hexpand hp
    by_cases hn : s.n = 43
    · simp [CounterInRange, hn]
    · obtain ⟨hsucc, hle⟩ := counter_succ high hn
      simp only [CounterInRange, hn, if_false, hsucc]
      exact ⟨fun _ => ⟨by omega, hle⟩, by simp⟩
  | round hp =>
    by_cases hn : s.n = 43
    · simp [CounterInRange, hn]
    · obtain ⟨hsucc, hle⟩ := counter_succ (hround hp) hn
      simp only [CounterInRange, hn, if_false, hsucc]
      exact ⟨by simp, fun _ => hle⟩

/-- The two rules that use the accumulator clear it again (log 5). -/
theorem accumulatorAtRest_rule {s u : State} (hs : AccumulatorAtRest s) (hu : Rule s u) :
    AccumulatorAtRest u := by
  cases hu with
  | keyDecode | blockDecode => rfl
  | _ => exact hs

/-- Settles O44: each of its three clauses holds after reset and is kept by every rule. -/
theorem everyStepKeepsTheControlInvariant : Obligations.EveryStepKeepsTheControlInvariant := by
  intro s t hs h
  refine step_keeps (P := ControlInv) (fun s => ?_) (fun s u hs hu => ?_) (fun _ h => h) hs h
  · simp [ControlInv, FlagsAgree, CounterInRange, AccumulatorAtRest]
  · obtain ⟨hflags, hcounter, hacc⟩ := hs
    exact ⟨flagsAgree_rule hflags hu, counterInRange_rule hcounter hu, accumulatorAtRest_rule hacc hu⟩

end Sys2Proof.Machine
end

section
/-! SUPPORT. How a step advances phase and counter (10_state.md R30), and which registers it writes (R20). -/

namespace Sys2Proof.Machine

/-- A string decodes exactly when it is a valid HexBlock (R137). -/
theorem decodeHex_isSome (text : Text) : (decodeHex text).isSome = validHex text 16 := by
  by_cases h : text.length = 16
  · rw [decodeHex_of_length h, decodeFrom_isSome]; simp [validHex, h]
  · simp [decodeHex, validHex, h]

/-- A string of 32 decodes as a key exactly when it is a valid HexKey (R137, R151). -/
theorem decodeKey_isSome {key : Text} (h : key.length = 32) :
    (decodeKey key).isSome = validHex key 32 := by
  have halves : key.all validChar = ((keyHighText key).all validChar && (keyLowText key).all validChar) := by
    rw [← List.all_append, keyHighText, keyLowText, List.take_append_drop]
  rw [decodeKey_of_length h]
  simp only [validHex, h, halves, ← decodeFrom_isSome 0]
  cases decodeFrom 0 (keyHighText key) <;> cases decodeFrom 0 (keyLowText key) <;> rfl

/-- Settles O39, rule by rule: the phase and the condition of every other row are not the rule's. -/
theorem phaseTable : Obligations.PhaseTable := by
  intro s t hr h
  obtain ⟨u, hu, rfl⟩ := rule_of_step hr h
  simp only [endStep_phase, endStep_n]
  clear h
  have hkey := decodeKey_isSome (key := s.keyR.toList) (by simp)
  have hblk := decodeHex_isSome s.blkR.toList
  cases hu with
  | hold hp hs | accept hp hs =>
    obtain hp | hp | hp := (accepting_iff _).mp hp <;> simp [hp, hs, Phase.accepting]
  | keyDecode hp hk | badKey hp hk => simp [hp, ← hkey, hk, Phase.accepting]
  | blockDecode hp hb | badBlock hp hb => simp [hp, ← hblk, hb, Phase.accepting]
  | keyExpand hp | round hp =>
    have before : s.n < 43 → s.n ≠ 43 := by bv_omega
    simpa +contextual [hp, Phase.accepting] using before
  | keySeed hp | split hp | reassemble hp | encode hp => simp [hp, Phase.accepting]

/-- Settles O41, rule by rule: a rule's result names the registers it writes. -/
theorem registersAreWrittenByTheirStepsOnly : Obligations.RegistersAreWrittenByTheirStepsOnly := by
  intro s t hr h
  obtain ⟨u, hu, rfl⟩ := rule_of_step hr h
  cases hu with
  | hold => simp
  | accept hp hs => simp [hp, hs]
  | keyDecode hp | badKey hp | blockDecode hp | badBlock hp => simp [hp]
  | split hp | round hp | reassemble hp | encode hp => simp [hp]
  | keySeed hp => simpa [hp] using fun j (h : j < 44) => lt_four_of_seeded_ne s.subkeys _ h
  | keyExpand hp => simpa [hp] using fun j (h : j < 44) => eq_n_of_keyExpand_subkeys_ne s h

end Sys2Proof.Machine
end

section
/-! SUPPORT. The datapath invariant (10_state.md R41), kept by every rule: the schedule's recurrence, the
rounds of a command, and then the rules one by one. -/

namespace Sys2Proof.Machine

/-! ### The schedule, subkey by subkey -/

/-- The expansion is the four subkeys of its window and then more (R152). -/
theorem expandFrom_eq_window (more : Nat) (z : Word64) (w : Window) :
    ∃ rest, expandFrom more z w = w.k0 :: w.k1 :: w.k2 :: w.k3 :: rest :=
  ⟨(expandFrom more z w).drop 4, by
    conv_lhs => rw [← List.take_append_drop 4 (expandFrom more z w), expandFrom_take]
    rfl⟩

/-- Every subkey after the first four comes from the three named before it, and from `z` shifted once for
each turn of the loop (R153). -/
theorem expandFrom_recurrence (more i : Nat) (z : Word64) (w : Window) (hi : i < more) :
    (expandFrom more z w)[i + 4]'(by simp [expandFrom_length]; omega) =
      nextSubkey (z >>> i) ((expandFrom more z w)[i]'(by simp [expandFrom_length]; omega))
        ((expandFrom more z w)[i + 1]'(by simp [expandFrom_length]; omega))
        ((expandFrom more z w)[i + 3]'(by simp [expandFrom_length]; omega)) := by
  induction more generalizing i z w with
  | zero => omega
  | succ more ih =>
    cases i with
    | zero =>
      obtain ⟨rest, hrest⟩ := expandFrom_eq_window more (z >>> 1) (w.advance z)
      simp only [expandFrom, hrest]
      rfl
    | succ i =>
      simp only [expandFrom, List.getElem_cons_succ, ih i (z >>> 1) (w.advance z) (by omega)]
      rw [← BitVec.shiftRight_add, Nat.add_comm]

/-- Subkey `n` of a schedule from the subkeys before it (R153). -/
theorem scheduleOf_recurrence (high low : Word64) {n : Nat} (hlow : 4 ≤ n) (hhigh : n < 44) :
    (scheduleOf high low)[n]'(by simp [scheduleOf_length, hhigh]) =
      nextSubkey (constZ0 >>> (n - 4)) ((scheduleOf high low)[n - 4]'(by simp [scheduleOf_length]; omega))
        ((scheduleOf high low)[n - 3]'(by simp [scheduleOf_length]; omega))
        ((scheduleOf high low)[n - 1]'(by simp [scheduleOf_length]; omega)) := by
  obtain ⟨i, rfl⟩ := Nat.exists_eq_add_of_le' hlow
  exact expandFrom_recurrence 40 i constZ0 (seedWindow high low) (by omega)

/-- Lists that agree on their first `n` entries agree on each of these. -/
theorem getElem_eq_of_take_eq {xs ys : List Word32} {n i : Nat} (h : xs.take n = ys.take n) (hi : i < n)
    (hx : i < xs.length) (hy : i < ys.length) : xs[i] = ys[i] := by
  have := congrArg (·[i]?) h
  simpa [List.getElem?_take, hi, hx, hy] using this

/-- One entry more that agrees. -/
theorem take_succ_set_eq {xs ys : List Word32} {n : Nat} (h : xs.take n = ys.take n)
    (hx : n < xs.length) (hy : n < ys.length) : (xs.set n ys[n]).take (n + 1) = ys.take (n + 1) := by
  rw [List.take_add_one, List.take_add_one, List.take_set_of_le le_rfl, h, List.getElem?_set_self hx,
    List.getElem?_eq_getElem hy]

/-- KEY_SEED puts the first four subkeys of the schedule in their places (R152, R208). -/
theorem seeded_take (ks : Subkeys) (high low : Word64) :
    ((((ks.set 0 (seedWindow high low).k0).set 1 (seedWindow high low).k1).set 2
      (seedWindow high low).k2).set 3 (seedWindow high low).k3).toList.take 4 =
        (scheduleOf high low).take 4 := by
  rw [scheduleOf, expandFrom_take]
  obtain ⟨⟨ks⟩, hks⟩ := ks
  match ks, hks with
  | a :: b :: c :: d :: rest, _ => simp

/-- One KEY_EXPAND more and one subkey more is that of the schedule (R153, R209). -/
theorem keyExpand_take {s : State} {high low : Word64} (hlow : 4 ≤ s.n.toNat) (hhigh : s.n.toNat ≤ 43)
    (hz : s.z = constZ0 >>> (s.n.toNat - 4))
    (htake : s.subkeys.toList.take s.n.toNat = (scheduleOf high low).take s.n.toNat) :
    (keyExpand s).subkeys.toList.take (s.n.toNat + 1) = (scheduleOf high low).take (s.n.toNat + 1) := by
  have subkey (j : Nat) (hj : j < s.n.toNat) :
      s.subkeys[j] = (scheduleOf high low)[j]'(by simp [scheduleOf_length]; omega) := by
    rw [← Vector.getElem_toList (by simp; omega)]
    exact getElem_eq_of_take_eq htake hj (by simp; omega) (by simp [scheduleOf_length]; omega)
  have new : (keyExpand s).subkeys = s.subkeys.set s.n.toNat
      ((scheduleOf high low)[s.n.toNat]'(by simp [scheduleOf_length]; omega)) := by
    rw [keyExpand_eq s hlow hhigh, scheduleOf_recurrence high low hlow (by omega), hz,
      subkey _ (by omega), subkey _ (by omega), subkey _ (by omega)]
  rw [new, Vector.toList_set]
  exact take_succ_set_eq htake (by simp; omega) (by simp [scheduleOf_length]; omega)

/-! ### Rounds, and the command as a whole -/

/-- No round done: the command's split (R172, R173, R178). -/
theorem roundsDone_zero (op : BitVec 1) (ks : List Word32) (v : Word64) :
    roundsDone op ks 0 v = if op = 0 then splitForEncrypt v else splitForDecrypt v := by
  simp [roundsDone]

/-- One round more: the command's round with the subkey of its order (R174, R175, R178). -/
theorem roundsDone_succ (op : BitVec 1) (ks : List Word32) {m : Nat} (v : Word64) (h : m < ks.length) :
    roundsDone op ks (m + 1) v =
      if op = 0 then encryptRound (roundsDone op ks m v) ks[m]
      else decryptRound (roundsDone op ks m v) (ks[ks.length - 1 - m]) := by
  have hr : m < ks.reverse.length := by simpa using h
  unfold roundsDone
  split
  · rw [← List.take_append_getElem h, List.foldl_append]; rfl
  · rw [← List.take_append_getElem hr, List.foldl_append, List.getElem_reverse]; rfl

/-- A command with a schedule and a decoded block: all its rounds, reassembled and encoded (R181, R182). -/
theorem commandText_eq_some {block key : Text} {ks : List Word32} {v : Word64} (op : BitVec 1)
    (hk : keySchedule key = some ks) (hb : decodeHex block = some v) :
    commandText op block key = some (encodeHex (reassembleHalves (roundsDone op ks ks.length v))) := by
  unfold commandText roundsDone
  split
  · simp [encryptText, hk, hb]
  · rw [List.take_of_length_le (by simp)]; simp only [decryptText, hk, hb]

/-- A command without a schedule fails (R181, R182). -/
theorem commandText_of_badKey {block key : Text} (op : BitVec 1) (hk : decodeKey key = none) :
    commandText op block key = none := by
  simp [commandText, encryptText, decryptText, keySchedule, hk]

/-- A command without a decoded block fails (R181, R182). -/
theorem commandText_of_badBlock {block key : Text} (op : BitVec 1) (hb : decodeHex block = none) :
    commandText op block key = none := by
  cases keySchedule key <;> simp [commandText, encryptText, decryptText, hb]

/-! ### The datapath invariant -/

/-- The next BlockState of a coherent ROUND is that of one round more (R212, R213). -/
theorem round_eq_roundsDone {s : State} {v : Word64} (hhigh : s.n.toNat ≤ 43)
    (hrounds : s.blockState = roundsDone s.opR s.subkeys.toList s.n.toNat v) :
    (if s.opR = 0 then encryptRound s.blockState (readSubkey s.n s)
      else decryptRound s.blockState (readSubkey (43 - s.n) s)) =
      roundsDone s.opR s.subkeys.toList (s.n.toNat + 1) v := by
  rw [roundsDone_succ _ _ _ (by simp; omega), ← hrounds, readSubkey_at s (by omega) rfl,
    readSubkey_at (j := 43 - s.n.toNat) s (by omega) (by bv_omega)]
  simp

/-- Every rule keeps the datapath in agreement with the latched command: the decode rules start it, KEY_EXPAND
adds a subkey of the schedule, ROUND a round, and the last step of each loop has them all (R41). -/
theorem coherent_rule {s u : State} (hs : Coherent s) (hu : Rule s u) : Coherent u := by
  cases hu with
  | hold => exact hs
  | accept => trivial
  | keyDecode hp hk => exact hk
  | badKey hp hk => exact commandText_of_badKey _ hk
  | keySeed hp =>
    simp only [Coherent, hp] at hs
    exact ⟨(by decide : 4 ≤ (4#6).toNat), (by decide : (4#6).toNat ≤ 43), rfl, _,
      keySchedule_eq_some.mpr ⟨_, _, hs, rfl⟩, seeded_take _ _ _⟩
  | keyExpand hp =>
    simp only [Coherent, hp] at hs
    obtain ⟨hlow, hhigh, hz, ks, hks, htake⟩ := hs
    obtain ⟨high, low, -, rfl⟩ := keySchedule_eq_some.mp hks
    have hnext := keyExpand_take hlow hhigh hz htake
    by_cases hn : s.n = 43
    · have all : (keyExpand s).subkeys.toList = scheduleOf high low := by
        rwa [hn, List.take_of_length_le (by simp), List.take_of_length_le (by simp [scheduleOf_length])]
          at hnext
      rw [if_pos hn]
      exact hks.trans (congrArg some all.symm)
    · obtain ⟨hsucc, hle⟩ := counter_succ hhigh hn
      rw [if_neg hn]
      have hshift : s.z >>> 1 = constZ0 >>> (s.n.toNat + 1 - 4) := by
        rw [hz, ← BitVec.shiftRight_add, Nat.sub_add_comm hlow]
      simp only [Coherent, hsucc]
      exact ⟨by omega, hle, hshift, _, hks, hnext⟩
  | blockDecode hp hb =>
    simp only [Coherent, hp] at hs
    exact ⟨hs, hb⟩
  | badBlock hp hb => exact commandText_of_badBlock _ hb
  | split hp hb =>
    simp only [Coherent, hp] at hs
    obtain ⟨hks, hblk⟩ := hs
    exact ⟨(by decide : (0#6).toNat ≤ 43), hks, _, hblk, hb.trans (roundsDone_zero _ _ _).symm⟩
  | round hp hb =>
    simp only [Coherent, hp] at hs
    obtain ⟨hhigh, hks, v, hblk, hrounds⟩ := hs
    rw [round_eq_roundsDone hhigh hrounds] at hb
    by_cases hn : s.n = 43
    · have hcommand := commandText_eq_some s.opR hks hblk
      rw [show s.n.toNat + 1 = 44 by rw [hn]; rfl] at hb
      rw [Vector.length_toList, ← hb] at hcommand
      rw [if_pos hn]
      exact hcommand
    · obtain ⟨hsucc, hle⟩ := counter_succ hhigh hn
      rw [if_neg hn]
      simp only [Coherent, hsucc]
      exact ⟨hle, hks, v, hblk, hb⟩
  | reassemble hp =>
    simp only [Coherent, hp] at hs
    exact hs
  | encode hp =>
    simp only [Coherent, hp] at hs
    exact hs

/-- Settles O45: reset asks nothing of the datapath, and each rule keeps what it needs. -/
theorem everyStepKeepsTheDatapathCoherent : Obligations.EveryStepKeepsTheDatapathCoherent :=
  fun _ _ hs h => step_keeps (fun _ => trivial) (fun _ _ => coherent_rule) (fun _ h => h) hs h

/-- Settles O43: in IDLE the datapath invariant asks nothing. -/
theorem invariantsHoldAtReset : Obligations.InvariantsHoldAtReset := by
  refine ⟨rfl, rfl, rfl, rfl, ⟨⟨?_, ?_⟩, ⟨?_, ?_⟩, rfl⟩, trivial⟩ <;> simp [State.reset]

end Sys2Proof.Machine
end

section
/-! SUPPORT. Whole transactions (44_interface_sequencer.md R218, 10_state.md R36, R40): a count of the steps left,
which every step that does not fail lowers by one, and what the registers hold on the way. -/

namespace Sys2Proof.Machine

/-! ### What a transaction leaves in the inner registers -/

/-- `{left, right}` as a concatenation (R176). -/
theorem joinHalves_eq_append (left right : Word32) : joinHalves left right = left ++ right := by
  refine BitVec.eq_of_getLsbD_eq fun i hi => ?_
  rw [BitVec.getLsbD_append]
  by_cases h : i < 32
  · simp [joinHalves, h, hi]
  · simp [joinHalves, h, hi, BitVec.getLsbD_of_ge right i (by omega)]

/-- The key's registers hold what the latched key gives: its halves and its schedule, with `z` shifted 40
times (R24, R26). -/
def ScheduleHeld (s : State) : Prop :=
  decodeKey s.keyR.toList = some (s.keyHigh, s.keyLow) ∧
    keySchedule s.keyR.toList = some s.subkeys.toList ∧ s.z = constZ0 >>> 40

/-- What a transaction has left at each phase in the registers its later steps do not read: nothing is
cleared (R40). What they do read is in `Coherent`. -/
def Residue (s : State) : Prop :=
  match s.phase with
  | .idle => True
  | .failed => True
  | .keyDecode => True
  | .keySeed => decodeKey s.keyR.toList = some (s.keyHigh, s.keyLow)
  | .keyExpand => decodeKey s.keyR.toList = some (s.keyHigh, s.keyLow)
  | .blockDecode => ScheduleHeld s
  | .split => ScheduleHeld s
  | .round => ScheduleHeld s
  | .reassemble => ScheduleHeld s ∧ s.n = 44
  | .encode => ScheduleHeld s ∧ s.n = 44 ∧ s.state64 = s.left ++ s.right
  | .encoded => ScheduleHeld s ∧ s.n = 44 ∧ s.state64 = s.left ++ s.right

/-- Every rule keeps what the earlier ones left (R40). -/
theorem residue_rule {s u : State} (hc : Coherent s) (hs : Residue s) (hu : Rule s u) : Residue u := by
  have hcu := coherent_rule hc hu
  cases hu with
  | hold => exact hs
  | accept | badKey | badBlock => trivial
  | keyDecode hp hk => exact hk
  | keySeed hp =>
    simp only [Residue, hp] at hs
    exact hs
  | keyExpand hp =>
    simp only [Residue, hp] at hs
    by_cases hn : s.n = 43
    · simp only [Coherent, hp] at hc
      obtain ⟨-, -, hz, -⟩ := hc
      have hshift : s.z >>> 1 = constZ0 >>> 40 := by rw [hz, hn, ← BitVec.shiftRight_add]; rfl
      rw [if_pos hn] at hcu ⊢
      exact ⟨hs, hcu, hshift⟩
    · rw [if_neg hn]
      exact hs
  | blockDecode hp | split hp =>
    simp only [Residue, hp] at hs
    exact hs
  | round hp =>
    simp only [Residue, hp] at hs
    by_cases hn : s.n = 43
    · rw [if_pos hn]
      exact ⟨hs, by rw [hn]; rfl⟩
    · rw [if_neg hn]
      exact hs
  | reassemble hp =>
    simp only [Residue, hp] at hs
    obtain ⟨hheld, hn⟩ := hs
    exact ⟨hheld, hn, joinHalves_eq_append _ _⟩
  | encode hp =>
    simp only [Residue, hp] at hs
    exact hs

/-! ### A transaction step by step -/

/-- The steps a transaction that does not fail still takes to ENCODED (R218). -/
def stepsLeft (s : State) : Nat :=
  match s.phase with
  | .idle => 0
  | .failed => 0
  | .encoded => 0
  | .keyDecode => 90
  | .keySeed => 89
  | .keyExpand => 92 - s.n.toNat
  | .blockDecode => 48
  | .split => 47
  | .round => 46 - s.n.toNat
  | .reassemble => 2
  | .encode => 1

/-- Where the datapath is coherent, both counting phases run with `n` at most 43 (R56). -/
theorem n_le_of_coherent {s : State} (hc : Coherent s) (hp : s.phase = .keyExpand ∨ s.phase = .round) :
    s.n.toNat ≤ 43 := by
  obtain hp | hp := hp <;> simp only [Coherent, hp] at hc
  · exact hc.2.1
  · exact hc.1

/-- A busy transaction has steps to take. -/
theorem stepsLeft_pos {s : State} (hc : Coherent s) (hbusy : s.phase.accepting = false) :
    0 < stepsLeft s := by
  cases hp : s.phase
  case idle | encoded | failed => simp [hp, Phase.accepting] at hbusy
  case keyExpand | round =>
    have hhigh := n_le_of_coherent hc (by simp [hp])
    simp only [stepsLeft, hp]
    omega
  all_goals simp [stepsLeft, hp]

/-- A busy step that does not fail is one step nearer to ENCODED, which is the only way to be done (R30). -/
theorem stepsLeft_rule {s u : State} (hc : Coherent s) (hu : Rule s u) (hbusy : s.phase.accepting = false)
    (hok : u.phase ≠ .failed) :
    stepsLeft u + 1 = stepsLeft s ∧ (u.phase.accepting = true → u.phase = .encoded) := by
  cases hu with
  | hold hp | accept hp => simp [hp] at hbusy
  | badKey | badBlock => exact absurd rfl hok
  | keyDecode hp | keySeed hp | blockDecode hp | split hp | reassemble hp | encode hp =>
    simp [stepsLeft, hp, Phase.accepting]
  | keyExpand hp | round hp =>
    have hhigh := n_le_of_coherent hc (by simp [hp])
    by_cases hn : s.n = 43
    · simp [stepsLeft, hp, hn, Phase.accepting]
    · obtain ⟨hsucc, hle⟩ := counter_succ hhigh hn
      simp only [stepsLeft, hp, hn, if_false, hsucc, Phase.accepting]
      exact ⟨by omega, by simp⟩

/-- A busy step that fails has an undecodable latched string (R243). -/
theorem badString_of_rule_failed {s u : State} (hu : Rule s u) (hbusy : s.phase.accepting = false)
    (hfail : u.phase = .failed) :
    (s.phase = .keyDecode ∧ decodeKey s.keyR.toList = none) ∨
      (s.phase = .blockDecode ∧ decodeHex s.blkR.toList = none) := by
  cases hu with
  | hold hp | accept hp => simp [hp] at hbusy
  | badKey hp hk => exact .inl ⟨hp, hk⟩
  | badBlock hp hb => exact .inr ⟨hp, hb⟩
  | keyDecode | keySeed | blockDecode | split | reassemble | encode => simp at hfail
  | keyExpand | round => split at hfail <;> simp at hfail

/-- While a transaction is busy its latches keep what ACCEPT put there (R35). -/
theorem latches_rule {s u : State} (hu : Rule s u) (hbusy : s.phase.accepting = false) :
    u.opR = s.opR ∧ u.blkR = s.blkR ∧ u.keyR = s.keyR := by
  cases hu with
  | accept hp => simp [hp] at hbusy
  | _ => exact ⟨rfl, rfl, rfl⟩

/-- `rst` stays 0 from one step to the next (R218). -/
theorem noReset_endStep {s : State} (h : NoReset s) : NoReset (endStep s) := by
  obtain ⟨hports, hscript⟩ := h
  cases hs : s.script with
  | nil => simp [NoReset, hs, nextPorts, hports]
  | cons p rest =>
    rw [hs] at hscript
    simpa [NoReset, hs, nextPorts] using hscript

/-- No reset is to come after a whole step with `rst = 0` either (R218). -/
theorem noReset_microStep {s : State} (h : NoReset s) : NoReset (endStep (microStep s)) := by
  obtain ⟨hports, hscript⟩ := microStep_ports s
  exact noReset_endStep (by rwa [NoReset, hports, hscript])

/-- A transaction on its way, from the step after its ACCEPT to ENCODED: the command latched, every
invariant, and no reset to come. -/
structure InTransaction (p : Ports) (s : State) : Prop where
  noReset  : NoReset s
  opR      : s.opR = p.op
  blkR     : s.blkR = p.blockIn
  keyR     : s.keyR = p.keyIn
  active   : s.phase.accepting = true → s.phase = .encoded
  flags    : FlagsAgree s
  coherent : Coherent s
  residue  : Residue s

/-- A requested transaction is on its way after one step (R206). -/
theorem inTransaction_of_requested {s : State} (h : Requested s) :
    ∃ t, step s = .next t ∧ InTransaction s.ports t ∧ stepsLeft t = 90 := by
  obtain ⟨haccepting, hstart, hreset⟩ := h
  have hreset' := noReset_microStep hreset
  refine ⟨_, step_of_noReset hreset.1, ?_⟩
  rw [microStep_accept haccepting hstart] at hreset' ⊢
  refine ⟨⟨hreset', rfl, rfl, rfl, ?_, ?_, trivial, trivial⟩, rfl⟩
  · simp [Phase.accepting]
  · simp [FlagsAgree]

/-- A transaction that still has steps to take is busy. -/
theorem InTransaction.busy {p : Ports} {s : State} (h : InTransaction p s) (hleft : 0 < stepsLeft s) :
    s.phase.accepting = false := by
  by_contra hp
  have hencoded := h.active (by simpa using hp)
  simp [stepsLeft, hencoded] at hleft

/-- A transaction with no step left is in ENCODED. -/
theorem InTransaction.encoded {p : Ports} {s : State} (h : InTransaction p s) (hleft : stepsLeft s = 0) :
    s.phase = .encoded := by
  refine h.active (by_contra fun hp => ?_)
  have hpos := stepsLeft_pos h.coherent (by simpa using hp)
  omega

/-- A step of a transaction whose strings are valid (the block from BLOCK_DECODE on) is one
nearer to its end. -/
theorem InTransaction.exists_step {p : Ports} {s : State} (h : InTransaction p s) (hleft : 0 < stepsLeft s)
    (hkey : ValidKey p.keyIn.toList) (hblock : s.phase = .blockDecode → ValidBlock p.blockIn.toList) :
    ∃ t, step s = .next t ∧ InTransaction p t ∧ stepsLeft t + 1 = stepsLeft s := by
  have hbusy := h.busy hleft
  have hrule := rule_microStep s
  have hok : (microStep s).phase ≠ .failed := fun hfail => by
    obtain ⟨-, hbad⟩ | ⟨hp, hbad⟩ := badString_of_rule_failed hrule hbusy hfail
    · rw [ValidKey, ← decodeKey_isSome (by simp), ← h.keyR, hbad] at hkey
      simp at hkey
    · have hvalid := hblock hp
      rw [ValidBlock, ← decodeHex_isSome, ← h.blkR, hbad] at hvalid
      simp at hvalid
  obtain ⟨hop, hblk, hkr⟩ := latches_rule hrule hbusy
  obtain ⟨hnear, hactive⟩ := stepsLeft_rule h.coherent hrule hbusy hok
  have hflags := flagsAgree_rule h.flags hrule
  have hcoherent := coherent_rule h.coherent hrule
  have hresidue := residue_rule h.coherent h.residue hrule
  exact ⟨_, step_of_noReset h.noReset.1, ⟨noReset_microStep h.noReset, hop.trans h.opR, hblk.trans h.blkR,
    hkr.trans h.keyR, hactive, hflags, hcoherent, hresidue⟩, hnear⟩

/-- A run of one step more, by the state after its first step. -/
theorem runFor_of_step {s t : State} (h : step s = .next t) (k : Nat) : runFor (k + 1) s = runFor k t := by
  rw [step_eq] at h
  rw [runFor_succ, Host.Outcome.next.inj h]

/-- A transaction whose strings are valid stays on its way for as many steps as it has left; the block must
be valid only for a run that takes BLOCK_DECODE. -/
theorem runFor_inTransaction {p : Ports} (hkey : ValidKey p.keyIn.toList) (k : Nat) {s : State}
    (h : InTransaction p s) (hk : k ≤ stepsLeft s)
    (hblock : stepsLeft s < k + 48 → ValidBlock p.blockIn.toList) :
    ∃ t, runFor k s = .next t ∧ InTransaction p t ∧ stepsLeft t + k = stepsLeft s := by
  induction k generalizing s with
  | zero => exact ⟨s, runFor_zero s, h, rfl⟩
  | succ k ih =>
    obtain ⟨u, hstep, hu, hnear⟩ := h.exists_step (by omega) hkey
      fun hp => hblock (by simp only [stepsLeft, hp]; omega)
    obtain ⟨t, hrun, ht, hleft⟩ := ih hu (by omega) fun hlt => hblock (by omega)
    exact ⟨t, (runFor_of_step hstep k).trans hrun, ht, by omega⟩

/-- A requested transaction with valid strings is in ENCODED after 91 steps (R218 a). -/
theorem runFor_91_of_valid {s : State} (h : Requested s) (hblock : ValidBlock s.ports.blockIn.toList)
    (hkey : ValidKey s.ports.keyIn.toList) :
    ∃ t, runFor 91 s = .next t ∧ InTransaction s.ports t ∧ t.phase = .encoded := by
  obtain ⟨u, hstep, hu, hleft⟩ := inTransaction_of_requested h
  obtain ⟨t, hrun, ht, hend⟩ := runFor_inTransaction hkey 90 hu (by omega) fun _ => hblock
  exact ⟨t, (runFor_of_step hstep 90).trans hrun, ht, ht.encoded (by omega)⟩

/-- Settles O49: the residue at ENCODED, for the latched command. -/
theorem registersAfterASuccessfulTransaction : Obligations.RegistersAfterASuccessfulTransaction := by
  intro s h hblock hkey
  obtain ⟨t, hrun, ht, hp⟩ := runFor_91_of_valid h hblock hkey
  have hresidue := ht.residue
  simp only [Residue, ScheduleHeld, hp, ht.keyR] at hresidue
  obtain ⟨⟨hhalves, hschedule, hz⟩, hn, hjoin⟩ := hresidue
  exact ⟨t, hrun, ht.opR, ht.blkR, ht.keyR, hhalves, hschedule, hn, hz, hjoin⟩

/-- At its end a transaction shows the command's result, `done = 1`, `err = 0`, `busy = 0` (R31, R218 a). -/
theorem InTransaction.outputs_encoded {p : Ports} {t : State} (h : InTransaction p t)
    (hp : t.phase = .encoded) :
    ∃ R, commandText p.op p.blockIn.toList p.keyIn.toList = some R ∧
      t.outputs = { blockOut := packText 128 R, done := true, err := false, busy := false } := by
  have hcommand := h.coherent
  simp only [Coherent, hp, h.opR, h.blkR, h.keyR] at hcommand
  obtain ⟨hdone, herr⟩ := h.flags
  have hd : t.done = true := hdone.mpr (.inl hp)
  have he : t.err = false := Bool.eq_false_iff.mpr fun he => by simpa [hp] using herr.mp he
  refine ⟨_, hcommand, ?_⟩
  simp [State.outputs, State.busy, hp, Phase.accepting, hd, he]

/-- Settles O50: both runs end in ENCODED with the result of the one command both latched. -/
theorem outputsDependOnTheLatchedValuesOnly : Obligations.OutputsDependOnTheLatchedValuesOnly := by
  intro s s' h h' hports hblock hkey
  obtain ⟨t, hrun, ht, hp⟩ := runFor_91_of_valid h hblock hkey
  obtain ⟨t', hrun', ht', hp'⟩ := runFor_91_of_valid h' (hports ▸ hblock) (hports ▸ hkey)
  obtain ⟨R, hR, hout⟩ := ht.outputs_encoded hp
  obtain ⟨R', hR', hout'⟩ := ht'.outputs_encoded hp'
  rw [hports, hR, Option.some.injEq] at hR'
  exact ⟨t, t', hrun, hrun', by rw [hout, hout', hR']⟩

end Sys2Proof.Machine
end

section
/-! SUPPORT. The bytes and nibbles of words (20_memory.md R55): which character each nibble of a decoded word
comes from, and where the halves of a word, their rearrangement and their reassembly put each byte. -/

namespace Sys2Proof.Machine

/-! ### The nibbles of a decoded word -/

/-- A turn of the decode loop moves the accumulator up by one nibble (R132). -/
theorem getLsbD_accumulate_add_four (acc : Word64) (d : Nibble) {i : Nat} (hi : i + 4 < 64) :
    (accumulate acc d).getLsbD (i + 4) = acc.getLsbD i := by
  have hi' : i < 64 := by omega
  simp [accumulate, hi, hi', BitVec.getLsbD_eq_getElem]

/-- A turn of the decode loop puts the new digit into the lowest nibble (R132). -/
theorem extractLsb'_accumulate (acc : Word64) (d : Nibble) :
    (accumulate acc d).extractLsb' 0 4 = d := by
  refine BitVec.eq_of_getLsbD_eq fun i hi => ?_
  have hi' : i < 64 := by omega
  simp [accumulate, hi, hi']

/-- The decode loop moves what was in the accumulator up by one nibble per character (R132). -/
theorem getLsbD_of_decodeFrom {text : Text} {acc v : Word64} (h : decodeFrom acc text = some v) {i : Nat}
    (hi : 4 * text.length + i < 64) : v.getLsbD (4 * text.length + i) = acc.getLsbD i := by
  induction text generalizing acc i with
  | nil =>
    obtain rfl : acc = v := by simpa [decodeFrom] using h
    simp
  | cons c cs ih =>
    rw [List.length_cons] at hi ⊢
    cases hc : hexval c with
    | none => simp [decodeFrom, hc] at h
    | some d =>
      simp only [decodeFrom, hc] at h
      calc v.getLsbD (4 * (cs.length + 1) + i)
          = v.getLsbD (4 * cs.length + (i + 4)) := by congr 1; omega
        _ = (accumulate acc d).getLsbD (i + 4) := ih h (by omega)
        _ = acc.getLsbD i := getLsbD_accumulate_add_four acc d (by omega)

/-- The digit of each character of a decoded text, the last one in the lowest nibble (R132). -/
theorem hexval_of_decodeFrom {text : Text} {acc v : Word64} (h : decodeFrom acc text = some v)
    (hlen : text.length ≤ 16) {k : Nat} (hk : k < text.length) :
    (text[k]?).bind hexval = some (v.extractLsb' (4 * (text.length - 1 - k)) 4) := by
  induction text generalizing acc k with
  | nil => simp at hk
  | cons c cs ih =>
    rw [List.length_cons] at hlen hk
    cases hc : hexval c with
    | none => simp [decodeFrom, hc] at h
    | some d =>
      simp only [decodeFrom, hc] at h
      cases k with
      | zero =>
        have hd : v.extractLsb' (4 * cs.length) 4 = d := by
          rw [← extractLsb'_accumulate acc d]
          refine BitVec.eq_of_getLsbD_eq fun i hi => ?_
          simp [hi, getLsbD_of_decodeFrom h (i := i) (by omega)]
        simp [hc, hd]
      | succ k =>
        have hrest := ih h (by omega) (k := k) (by omega)
        rwa [List.getElem?_cons_succ, List.length_cons,
          show cs.length + 1 - 1 - (k + 1) = cs.length - 1 - k by omega]

/-- The character at offset `k` of a decoded string is its word's nibble `k`, most significant first (R132,
R134). -/
theorem hexval_of_decodeHex {text : Text} {v : Word64} (h : decodeHex text = some v) {k : Nat} (hk : k < 16) :
    (text[k]?).bind hexval = some (nibbleOf v k) := by
  have hlen : text.length = 16 := by
    by_contra hne
    simp [decodeHex, hne] at h
  rw [decodeHex_of_length hlen] at h
  rw [hexval_of_decodeFrom h hlen.le (by omega), nibbleOf, hlen]
  congr 2
  omega

/-- Two neighbouring nibbles are a byte, the first one its high nibble (R55). -/
theorem nibbleOf_append_nibbleOf (v : Word64) {j : Nat} (hj : j < 8) :
    nibbleOf v (2 * j) ++ nibbleOf v (2 * j + 1) = v.extractLsb' (56 - 8 * j) 8 := by
  rw [nibbleOf, nibbleOf, show 60 - 4 * (2 * j + 1) = 56 - 8 * j by omega]
  exact BitVec.extractLsb'_append_extractLsb'_eq_extractLsb' (by omega)

/-! ### The bytes of the halves -/

/-- Byte `j` of the high half is byte `4 + j` of the word (R53). -/
theorem byteOf_highHalf (v : Word64) {j : Nat} (hj : j < 4) :
    byteOf (highHalf v) j = v.extractLsb' (32 + 8 * j) 8 := by
  refine BitVec.eq_of_getLsbD_eq fun i hi => ?_
  have hi' : 8 * j + i < 32 := by omega
  simp [byteOf, highHalf, hi, hi', Nat.add_assoc]

/-- Byte `j` of the low half is byte `j` of the word (R11, R53). -/
theorem byteOf_lowHalf (v : Word64) {j : Nat} (hj : j < 4) :
    byteOf (lowHalf v) j = v.extractLsb' (8 * j) 8 :=
  BitVec.extractLsb'_setWidth_of_le (by omega)

/-- `rearrangeBytes` puts each byte in the opposite place (R114). -/
theorem byteOf_rearrangeBytes (v : Word32) {j : Nat} (hj : j < 4) :
    byteOf (rearrangeBytes v) j = byteOf v (3 - j) := by
  interval_cases j
  · exact BitVec.extractLsb'_append_eq_right
  · exact (BitVec.extractLsb'_append_eq_of_le (by omega)).trans BitVec.extractLsb'_append_eq_right
  · exact (BitVec.extractLsb'_append_eq_of_le (by omega)).trans <|
      (BitVec.extractLsb'_append_eq_of_le (by omega)).trans BitVec.extractLsb'_append_eq_right
  · exact (BitVec.extractLsb'_append_eq_of_le (by omega)).trans <|
      (BitVec.extractLsb'_append_eq_of_le (by omega)).trans BitVec.extractLsb'_append_eq_left

/-- The high half of `{left, right}` is `left` (R176). -/
theorem highHalf_joinHalves (left right : Word32) : highHalf (joinHalves left right) = left := by
  rw [joinHalves_eq_append]
  exact BitVec.extractLsb'_append_eq_left

/-- The low half of `{left, right}` is `right` (R176). -/
theorem lowHalf_joinHalves (left right : Word32) : lowHalf (joinHalves left right) = right := by
  rw [joinHalves_eq_append]
  exact BitVec.setWidth_append_eq_right

/-- Byte `j` of the high half counted from its top is byte `7 - j` of the word (R53). -/
theorem byteOf_highHalf_sub (v : Word64) {j : Nat} (hj : j < 4) :
    byteOf (highHalf v) (3 - j) = v.extractLsb' (56 - 8 * j) 8 := by
  rw [byteOf_highHalf v (by omega), show 32 + 8 * (3 - j) = 56 - 8 * j by omega]

/-- Byte `j` of the low half counted from its top is byte `3 - j` of the word (R53). -/
theorem byteOf_lowHalf_sub (v : Word64) {j : Nat} (hj : j < 4) :
    byteOf (lowHalf v) (3 - j) = v.extractLsb' (24 - 8 * j) 8 := by
  rw [byteOf_lowHalf v (by omega), show 8 * (3 - j) = 24 - 8 * j by omega]

/-- Byte `j` of the rearranged high half is byte `7 - j` of the word (R55, R114). -/
theorem byteOf_rearrangeBytes_highHalf (v : Word64) {j : Nat} (hj : j < 4) :
    byteOf (rearrangeBytes (highHalf v)) j = v.extractLsb' (56 - 8 * j) 8 := by
  rw [byteOf_rearrangeBytes _ hj, byteOf_highHalf_sub v hj]

/-- Byte `j` of the rearranged low half is byte `3 - j` of the word (R55, R114). -/
theorem byteOf_rearrangeBytes_lowHalf (v : Word64) {j : Nat} (hj : j < 4) :
    byteOf (rearrangeBytes (lowHalf v)) j = v.extractLsb' (24 - 8 * j) 8 := by
  rw [byteOf_rearrangeBytes _ hj, byteOf_lowHalf_sub v hj]

/-- Settles O13: nibble by nibble for the decoded word; the other conversions are halves of a word, whose
bytes `rearrangeBytes` reverses. -/
theorem byteStreamView : Obligations.ByteStreamView := by
  refine ⟨fun s v h j hj => ?_, fun high low j hj => ?_, fun v j hj => ?_, fun b j hj => ?_⟩
  · exact ⟨_, _, hexval_of_decodeHex h (by omega), hexval_of_decodeHex h (by omega),
      nibbleOf_append_nibbleOf v hj⟩
  · exact ⟨byteOf_rearrangeBytes_highHalf high hj, byteOf_rearrangeBytes_lowHalf high hj,
      byteOf_rearrangeBytes_highHalf low hj, byteOf_rearrangeBytes_lowHalf low hj⟩
  · exact ⟨byteOf_rearrangeBytes_highHalf v hj, byteOf_rearrangeBytes_lowHalf v hj,
      byteOf_highHalf_sub v hj, byteOf_lowHalf_sub v hj⟩
  · rw [← byteOf_highHalf_sub _ hj, ← byteOf_lowHalf_sub _ hj, reassembleHalves, highHalf_joinHalves,
      lowHalf_joinHalves]
    exact ⟨rfl, rfl⟩

end Sys2Proof.Machine
end

section
/-! SUPPORT. The two formats of 30_encoding.md: what an instruction of each encodes to, and which bytes decode
to it (R81, R82, R84). -/

namespace Sys2Proof.Machine

/-! ### The two formats -/

/-- A row found in a list of rows is one of them. -/
theorem mem_of_lookupRow {code : Byte} {i : Instr} {rows : List (Byte × Instr)}
    (h : lookupRow code rows = some i) : (code, i) ∈ rows := by
  induction rows with
  | nil => simp [lookupRow] at h
  | cons row rows ih =>
    rw [lookupRow] at h
    split at h
    case isTrue hcode => obtain ⟨⟩ := h; simp [hcode]
    case isFalse => exact List.mem_cons_of_mem _ (ih h)

/-- A character is well formed, its code is its encoding, and its code is no command byte (R84, log 6). -/
theorem char_of_decodeChar {code : Byte} {i : Instr} (h : decodeChar code = some i) :
    i.WellFormed ∧ encode i = [code] ∧ commandBit code = none := by
  have rows : ∀ row ∈ charRows,
      row.2.WellFormed ∧ encode row.2 = [row.1] ∧ commandBit row.1 = none := by decide
  exact rows _ (mem_of_lookupRow h)

/-- An instruction is a command or one of the sixteen characters (R87). -/
theorem eq_decodeCommand_or_char (i : Instr) :
    (∃ op block key, i = decodeCommand op block key) ∨ ∃ code, decodeChar code = some i := by
  cases i with
  | encrypt block key => exact .inl ⟨0, block, key, rfl⟩
  | decrypt block key => exact .inl ⟨1, block, key, rfl⟩
  | hexChar0 => exact .inr ⟨0x30, rfl⟩
  | hexChar1 => exact .inr ⟨0x31, rfl⟩
  | hexChar2 => exact .inr ⟨0x32, rfl⟩
  | hexChar3 => exact .inr ⟨0x33, rfl⟩
  | hexChar4 => exact .inr ⟨0x34, rfl⟩
  | hexChar5 => exact .inr ⟨0x35, rfl⟩
  | hexChar6 => exact .inr ⟨0x36, rfl⟩
  | hexChar7 => exact .inr ⟨0x37, rfl⟩
  | hexChar8 => exact .inr ⟨0x38, rfl⟩
  | hexChar9 => exact .inr ⟨0x39, rfl⟩
  | hexCharA => exact .inr ⟨0x61, rfl⟩
  | hexCharB => exact .inr ⟨0x62, rfl⟩
  | hexCharC => exact .inr ⟨0x63, rfl⟩
  | hexCharD => exact .inr ⟨0x64, rfl⟩
  | hexCharE => exact .inr ⟨0x65, rfl⟩
  | hexCharF => exact .inr ⟨0x66, rfl⟩

/-- Either command is well formed exactly when its strings have the lengths of the ports (R80). -/
theorem wellFormed_decodeCommand (op : BitVec 1) (block key : Text) :
    (decodeCommand op block key).WellFormed ↔ block.length = 16 ∧ key.length = 32 := by
  unfold decodeCommand
  split <;> simp [Instr.WellFormed, Instr.wellFormed, blockLengthOk, keyLengthOk]

/-- Either command encodes to its command byte and its strings (R81, R82, log 6). -/
theorem encode_decodeCommand (op : BitVec 1) (block key : Text) :
    encode (decodeCommand op block key) = encodeOp op :: (block ++ key) := by
  have h : op = 0 ∨ op = 1 := by revert op; decide
  obtain rfl | rfl := h <;> rfl

/-- A byte that gives a command bit is the byte of that command (R81, log 6). -/
theorem eq_encodeOp_of_commandBit {b : Byte} {op : BitVec 1} (h : commandBit b = some op) :
    b = encodeOp op := by
  unfold commandBit at h
  split at h
  case isTrue hb => obtain ⟨⟩ := h; exact hb
  case isFalse =>
    split at h
    case isTrue hb => obtain ⟨⟩ := h; exact hb
    case isFalse => cases h

/-- A character code decodes to its character, whatever follows (R84). -/
theorem decode_char {code : Byte} {i : Instr} (h : decodeChar code = some i) (rest : List Byte) :
    decode (code :: rest) = .ok (i, rest) := by
  obtain ⟨-, -, hcode⟩ := char_of_decodeChar h
  simp [decode, hcode, h]

/-- Bytes that decode begin with a command and strings of the lengths of the ports, or with a character code;
the other bytes are left (R81, R82, R84, R88). -/
theorem decode_cases {bytes rest : List Byte} {i : Instr} (h : decode bytes = .ok (i, rest)) :
    (∃ op block key, block.length = 16 ∧ key.length = 32 ∧ i = decodeCommand op block key ∧
        bytes = encodeOp op :: (block ++ key) ++ rest) ∨
      ∃ code, decodeChar code = some i ∧ bytes = code :: rest := by
  cases bytes with
  | nil => simp [decode] at h
  | cons b bytes =>
    cases hb : commandBit b with
    | some op =>
      have hlen : ¬ bytes.length < 48 := fun hlen => by simp [decode, hb, operandChars, hlen] at h
      obtain ⟨rfl, rfl⟩ : decodeCommand op (bytes.take 16) ((bytes.drop 16).take 32) = i ∧
          bytes.drop 48 = rest := by
        simpa [decode, hb, operandChars, hlen] using h
      refine .inl ⟨op, _, _, ?_, ?_, rfl, ?_⟩
      · rw [List.length_take]; omega
      · rw [List.length_take, List.length_drop]; omega
      · rw [eq_encodeOp_of_commandBit hb, List.cons_append, List.append_assoc,
          show bytes.drop 48 = (bytes.drop 16).drop 32 by rw [List.drop_drop],
          List.take_append_drop, List.take_append_drop]
    | none =>
      cases hi : decodeChar b with
      | none => simp [decode, hb, hi] at h
      | some j =>
        obtain ⟨rfl, rfl⟩ : j = i ∧ bytes = rest := by simpa [decode, hb, hi] using h
        exact .inr ⟨b, hi, rfl⟩

/-! ### Decode and encode -/

/-- Settles O1, format by format: the bytes of a command, and the code of a character. -/
theorem encodedInstructionDecodesBack : Obligations.EncodedInstructionDecodesBack := by
  intro i rest hwf
  obtain ⟨op, block, key, rfl⟩ | ⟨code, hcode⟩ := eq_decodeCommand_or_char i
  · obtain ⟨hblock, hkey⟩ := (wellFormed_decodeCommand op block key).mp hwf
    rw [encode_decodeCommand, decode_command op block key rest hblock hkey]
  · obtain ⟨-, hencode, -⟩ := char_of_decodeChar hcode
    rw [hencode]
    exact decode_char hcode rest

/-- Settles O2, format by format: the bytes that were read are those the format's encoding gives. -/
theorem decodedBytesAreTheEncoding : Obligations.DecodedBytesAreTheEncoding := by
  intro bytes i rest h
  obtain ⟨op, block, key, hblock, hkey, rfl, rfl⟩ | ⟨code, hcode, rfl⟩ := decode_cases h
  · exact ⟨(wellFormed_decodeCommand op block key).mpr ⟨hblock, hkey⟩, by rw [encode_decodeCommand]⟩
  · obtain ⟨hwf, hencode, -⟩ := char_of_decodeChar hcode
    exact ⟨hwf, by rw [hencode]; rfl⟩

end Sys2Proof.Machine
end

section
/-! SUPPORT. The characters on a flat string port (30_encoding.md R82). -/

namespace Sys2Proof.Machine

/-- One more character moves the others up by a byte and takes the lowest one (R82). -/
theorem packText_concat (w : Nat) (s : Text) (c : Byte) :
    packText w (s ++ [c]) = (packText w s <<< 8) ||| c.setWidth w := by
  simp [packText]

/-- The lowest byte of a port takes the character that comes in (R82). -/
theorem extractLsb'_zero_shiftLeft_or {w : Nat} (x : BitVec w) (c : Byte) (hw : 8 ≤ w) :
    ((x <<< 8) ||| c.setWidth w).extractLsb' 0 8 = c := by
  refine BitVec.eq_of_getLsbD_eq fun i hi => ?_
  have hi' : i < w := by omega
  simp [hi, hi']

/-- The bytes above the lowest one are those that were one place lower (R82). -/
theorem extractLsb'_add_eight_shiftLeft_or {w : Nat} (x : BitVec w) (c : Byte) {m : Nat} (hm : m + 16 ≤ w) :
    ((x <<< 8) ||| c.setWidth w).extractLsb' (m + 8) 8 = x.extractLsb' m 8 := by
  refine BitVec.eq_of_getLsbD_eq fun i hi => ?_
  have hi' : m + 8 + i < w := by omega
  have hlow : ¬ m + 8 + i < 8 := by omega
  have hsub : m + 8 + i - 8 = m + i := by omega
  have hc : c.getLsbD (m + 8 + i) = false := BitVec.getLsbD_of_ge c _ (by omega)
  simp only [BitVec.getLsbD_extractLsb', BitVec.getLsbD_or, BitVec.getLsbD_shiftLeft, BitVec.getLsbD_setWidth,
    hi, hi', hlow, hsub, hc]
  simp

/-- On a port wide enough for its string the last character is in the lowest byte, and each one before it a
byte higher (R82). -/
theorem extractLsb'_packText {w : Nat} {s : Text} (hw : 8 * s.length ≤ w) {k p : Nat}
    (hp : k + 1 + p = s.length) : (packText w s).extractLsb' (8 * p) 8 = s[k] := by
  induction s using List.reverseRecOn generalizing p with
  | nil => simp at hp
  | append_singleton s c ih =>
    rw [List.length_append, List.length_singleton] at hw hp
    rw [packText_concat]
    cases p with
    | zero =>
      obtain rfl : k = s.length := by omega
      rw [List.getElem_concat_length rfl]
      exact extractLsb'_zero_shiftLeft_or (packText w s) c (by omega)
    | succ p =>
      have hk : k < s.length := by omega
      rw [Nat.mul_succ, extractLsb'_add_eight_shiftLeft_or _ _ (by omega), ih (by omega) (by omega),
        List.getElem_append_left hk]

/-- Where a port's character at offset `k` is (R82). -/
theorem extractLsb'_packText_toList {w len : Nat} (hw : 8 * len ≤ w) (b : Vector Byte len) (k : Fin len)
    {place : Nat} (hplace : place = 8 * (len - 1 - k)) :
    (packText w b.toList).extractLsb' place 8 = b[k] := by
  subst hplace
  exact extractLsb'_packText (s := b.toList) (k := k.val) (by rwa [Vector.length_toList])
    (by rw [Vector.length_toList]; omega)

/-- The characters of a port's bits are the characters packed (R82). -/
theorem unpackText_packText_toList {w len : Nat} (hw : 8 * len ≤ w) (b : Vector Byte len) :
    unpackText len (packText w b.toList) = b.toList := by
  refine List.ext_getElem (by simp [unpackText]) fun k hk _ => ?_
  have hk' : k < len := by simpa [unpackText] using hk
  simpa [unpackText] using extractLsb'_packText_toList hw b ⟨k, hk'⟩ rfl

/-- Settles O4: the port lemmas at 16 characters in 128 bits and 32 characters in 256. -/
theorem portBitsOfStrings : Obligations.PortBitsOfStrings :=
  ⟨fun b k => extractLsb'_packText_toList (by decide) b k (by omega),
    fun b k => extractLsb'_packText_toList (by decide) b k (by omega),
    fun b => Vector.toList_inj.mp (unpackText_packText_toList (by decide) b),
    fun b => Vector.toList_inj.mp (unpackText_packText_toList (by decide) b)⟩

end Sys2Proof.Machine
end

section
/-! SUPPORT. The sixteen characters (30_encoding.md R84, 41_hex_codec.md R130, R131), and the words of the opcode
table, read by the decoder and placed in the state (R81, R84, log 7). -/

namespace Sys2Proof.Machine

/-! ### The sixteen characters -/

/-- The codes that have a digit value are `0` to `9` and `a` to `f` (R130). -/
theorem hexval_isSome (c : Byte) :
    (hexval c).isSome = true ↔ (0x30 ≤ c ∧ c ≤ 0x39) ∨ (0x61 ≤ c ∧ c ≤ 0x66) := by
  unfold hexval
  split
  case isTrue h => exact ⟨fun _ => .inl h, fun _ => rfl⟩
  case isFalse h =>
    split
    case isTrue h' => exact ⟨fun _ => .inr h', fun _ => rfl⟩
    case isFalse h' => exact ⟨nofun, fun hc => absurd hc (not_or.mpr ⟨h, h'⟩)⟩

/-- The codes with a row in the table are those with a digit value (R84, R88). -/
theorem decodeChar_isSome (c : Byte) : (decodeChar c).isSome = (hexval c).isSome := by
  simpa using congrArg Option.isSome (exec_of_decodeChar c State.reset)

/-- `hexchar` and `hexval` are the same table read in opposite directions (R131). -/
theorem hexval_eq_some (c : Byte) (v : Nibble) : hexval c = some v ↔ hexchar v = c := by
  have code_of_digit : ∀ v : Nibble, hexval (hexchar v) = some v := by decide
  have digit_of_code : ∀ c : Byte, ∀ v ∈ hexval c, hexchar v = c := by decide +kernel
  exact ⟨digit_of_code c v, fun h => h ▸ code_of_digit v⟩

/-- Settles O12: the characters' rows and digit values share one domain, and `hexchar` inverts it. -/
theorem characterTableReadBothWays : Obligations.CharacterTableReadBothWays := fun c =>
  ⟨by rw [decodeChar_isSome, hexval_isSome], decodeChar_isSome c, hexval_eq_some c⟩

/-- Settles O21: each arm takes its digit, and the digit widened to 64 bits is the literal. -/
theorem hexCharsShiftTheirDigitIn : Obligations.HexCharsShiftTheirDigitIn := fun _ =>
  ⟨rfl, rfl, rfl, rfl, rfl, rfl, rfl, rfl, rfl, rfl, rfl, rfl, rfl, rfl, rfl, rfl⟩

/-- A character's row runs its digit into the accumulator (R84, R132). -/
theorem exists_digit_of_decodeChar {c : Byte} {i : Instr} (h : decodeChar c = some i) :
    ∃ v, hexval c = some v ∧ ∀ s, exec i s = .next (takeNibble v s) := by
  have hsome : (hexval c).isSome = true := by rw [← decodeChar_isSome, h]; rfl
  obtain ⟨v, hv⟩ := Option.isSome_iff_exists.mp hsome
  exact ⟨v, hv, fun s => by simpa [h, hv] using exec_of_decodeChar c s⟩

/-! ### The words of the opcode table -/

/-- The bytes of an eight-bit word: the word, and zeros for the operands (log 6). -/
theorem tableBytes_eight (c : Byte) : tableBytes 8 c.toNat = c :: List.replicate 48 0 := by
  have high (k : Nat) : c.toNat >>> (8 * (k + 1)) = 0 :=
    Nat.shiftRight_eq_zero _ _ (c.isLt.trans_le (Nat.pow_le_pow_right (by decide) (by omega)))
  rw [tableBytes, List.range_succ_eq_map, List.map_cons, List.map_map, Nat.mod_eq_of_lt c.isLt]
  congr 1
  · simp
  · rw [List.eq_replicate_iff]
    simp [high, operandChars]

/-- The word of a command decodes to it, with zeros for its strings (R81, log 6). -/
theorem decodeTableWord_command (op : BitVec 1) :
    decodeTableWord 8 (encodeOp op).toNat =
      some (decodeCommand op (List.replicate 16 0) (List.replicate 32 0)) := by
  have h := decode_command op (List.replicate 16 0) (List.replicate 32 0) [] (by simp) (by simp)
  rw [List.append_nil, List.replicate_append_replicate] at h
  rw [decodeTableWord, tableBytes_eight, h]

/-- The word of a character decodes to it (R84). -/
theorem decodeTableWord_char {c : Byte} {i : Instr} (h : decodeChar c = some i) :
    decodeTableWord 8 c.toNat = some i := by
  rw [decodeTableWord, tableBytes_eight, decode_char h]

/-- The word of an illegal code decodes to nothing (R88). -/
theorem decodeTableWord_illegal {c : Byte} (hop : commandBit c = none) (h : decodeChar c = none) :
    decodeTableWord 8 c.toNat = none := by
  rw [decodeTableWord, tableBytes_eight, decode]
  simp only [hop, h]

/-- Settles O3, row by row: two commands, four characters and an illegal code. -/
theorem tableWordsDecodeToTheirRows : Obligations.TableWordsDecodeToTheirRows :=
  ⟨decodeTableWord_command 0, decodeTableWord_command 1, decodeTableWord_char (c := 0x30) rfl,
    decodeTableWord_char (c := 0x39) rfl, decodeTableWord_char (c := 0x61) rfl,
    decodeTableWord_char (c := 0x66) rfl, decodeTableWord_illegal (c := 0x41) rfl rfl⟩

/-! ### A word placed in the state -/

/-- The zero operands of a table word, as they go on the ports (log 6, log 7). -/
theorem blockAt_tableBytes (c : Byte) : (blockAt (tableBytes 8 c.toNat) 1).toList = List.replicate 16 0 := by
  rw [tableBytes_eight]; rfl
theorem keyAt_tableBytes (c : Byte) : (keyAt (tableBytes 8 c.toNat) 17).toList = List.replicate 32 0 := by
  rw [tableBytes_eight]; rfl

/-- The word of a command is placed on the ports (log 7). -/
theorem withFetchWord_command (op : BitVec 1) (s : State) :
    s.withFetchWord 8 (encodeOp op).toNat = placeCommand op (tableBytes 8 (encodeOp op).toNat) s := by
  have h : charAt (tableBytes 8 (encodeOp op).toNat) 0 = encodeOp op := by rw [tableBytes_eight]; rfl
  simp only [State.withFetchWord, placeWord, h, commandBit_encodeOp]

/-- The word of a character is placed in the latched block (log 7). -/
theorem withFetchWord_char {c : Byte} {i : Instr} (hc : decodeChar c = some i) (s : State) :
    s.withFetchWord 8 c.toNat = placeChar c s := by
  have h : charAt (tableBytes 8 c.toNat) 0 = c := by rw [tableBytes_eight]; rfl
  obtain ⟨-, -, hop⟩ := char_of_decodeChar hc
  simp only [State.withFetchWord, placeWord, h, hop]

/-- A step with a request in an accepting phase runs the command on the ports (R206). -/
theorem step_of_request {s : State} (hr : s.ports.rst = false) (hp : s.phase.accepting = true)
    (hs : s.ports.start = true) :
    step s = finishStep (exec (decodeCommand s.ports.op s.ports.blockIn.toList s.ports.keyIn.toList) s) := by
  simp [step, sequencerStep, hr, hp, hs, fetchCommand_eq]

/-- A placed command can be accepted (R201, log 7). -/
theorem placeCommand_accepting (op : BitVec 1) (bytes : List Byte) (s : State) :
    (placeCommand op bytes s).phase.accepting = true := by
  change (if s.phase.accepting then s.phase else .idle).accepting = true
  split
  case isTrue h => exact h
  case isFalse => rfl

/-- A placed command is what the next step runs (R206, log 7). -/
theorem step_withFetchWord_command (op : BitVec 1) (s : State) :
    step (s.withFetchWord 8 (encodeOp op).toNat) =
      finishStep (exec (decodeCommand op (List.replicate 16 0) (List.replicate 32 0))
        (s.withFetchWord 8 (encodeOp op).toNat)) := by
  rw [withFetchWord_command, step_of_request rfl (placeCommand_accepting ..) rfl,
    ← blockAt_tableBytes (encodeOp op), ← keyAt_tableBytes (encodeOp op)]
  rfl

/-- Fifteen leading zeros leave the decoder's accumulator at zero: a placed character is decoded alone (R132,
R136, log 7). -/
theorem decodeHex_charBlock {c : Byte} {v : Nibble} (h : hexval c = some v) :
    decodeHex (charBlock c).toList = some (accumulate 0 v) := by
  have zeros : decodeFrom 0 (List.replicate 15 0x30) = some 0 := by decide
  rw [decodeHex_of_length (by simp)]
  change decodeFrom 0 (List.replicate 15 0x30 ++ [c]) = _
  rw [decodeFrom_append, zeros]
  simp [decodeFrom, h]

/-- Settles O35: a placed command meets a request, and a placed character is alone in the latched block. -/
theorem placedWordIsRunNext : Obligations.PlacedWordIsRunNext := by
  refine ⟨fun s w hw => ?_, fun s c i hc => ⟨decodeTableWord_char hc, ?_⟩⟩
  · obtain ⟨op, rfl⟩ : ∃ op : BitVec 1, (encodeOp op).toNat = w := by
      interval_cases w
      exacts [⟨0, rfl⟩, ⟨1, rfl⟩]
    refine ⟨_, _, decodeTableWord_command op, exec_decodeCommand .., ?_⟩
    rw [step_withFetchWord_command, exec_decodeCommand]
    rfl
  · obtain ⟨v, hv, hexec⟩ := exists_digit_of_decodeChar hc
    refine ⟨_, hexec _, ?_⟩
    rw [withFetchWord_char hc, step_of_noReset rfl, microStep_blockDecode rfl, blockDecode_eq,
      show (placeChar c s).blkR = charBlock c from rfl, decodeHex_charBlock hv]
    rfl

end Sys2Proof.Machine
end

section
/-! SUPPORT. The word primitives (40_word_primitives.md): where a rotation puts each bit, and where
`rearrangeBytes` puts each byte (R111, R112, R114). -/

namespace Sys2Proof.Machine

/-! ### Rotations -/

/-- The model's left rotation is the library's (R111). -/
theorem rotateLeft_eq (x : Word32) (r : RotAmount) : rotateLeft x r = x.rotateLeft r.val := by
  have hr := r.property
  rw [BitVec.rotateLeft_def, Nat.mod_eq_of_lt (by omega)]
  rfl

/-- The right rotation by `r` is the left rotation by `32 - r` (R112). -/
theorem rotateRight_eq_rotateLeft (x : Word32) {r q : RotAmount} (hq : q.val = 32 - r.val) :
    rotateRight x r = rotateLeft x q := by
  have hr := r.property
  rw [rotateRight, rotateLeft, hq, Nat.sub_sub_self (by omega), BitVec.or_comm]

/-- Bit `j` of a left rotation is bit `j - r` mod 32 of the word (R111): the lowest `r` bits are the ones that
wrap around. -/
theorem getLsbD_rotateLeft (x : Word32) (r : RotAmount) {j : Nat} (hj : j < 32) :
    (rotateLeft x r).getLsbD j = x.getLsbD ((j + 32 - r.val) % 32) := by
  have hr := r.property
  rw [rotateLeft_eq, BitVec.getLsbD_rotateLeft, Nat.mod_eq_of_lt (show r.val < 32 by omega)]
  by_cases hwrap : j < r.val
  · simp [hwrap, show (j + 32 - r.val) % 32 = 32 - r.val + j by omega]
  · simp [hwrap, hj, show (j + 32 - r.val) % 32 = j - r.val by omega]

/-- Bit `j` of a right rotation is bit `j + r` mod 32 of the word (R112). -/
theorem getLsbD_rotateRight (x : Word32) (r : RotAmount) {j : Nat} (hj : j < 32) :
    (rotateRight x r).getLsbD j = x.getLsbD ((j + r.val) % 32) := by
  have hr := r.property
  rw [rotateRight_eq_rotateLeft x (q := ⟨32 - r.val, by omega⟩) rfl, getLsbD_rotateLeft x _ hj,
    show j + 32 - (32 - r.val) = j + r.val by omega]

/-- Settles O5: the bit a rotation reads at the place `j` moves to is bit `j` again. -/
theorem rotationsMoveEveryBit : Obligations.RotationsMoveEveryBit := by
  intro x r j hj
  have hr := r.property
  constructor
  · rw [getLsbD_rotateLeft _ _ (by omega)]
    congr 1
    omega
  · rw [getLsbD_rotateRight _ _ (by omega)]
    congr 1
    omega

/-- A left rotation undoes the right rotation by the same amount (R112): bit `j` is read at the place the right
rotation moved it to. -/
theorem rotateLeft_rotateRight (x : Word32) (r : RotAmount) : rotateLeft (rotateRight x r) r = x := by
  refine BitVec.eq_of_getLsbD_eq fun j hj => ?_
  rw [getLsbD_rotateLeft _ _ hj]
  exact (rotationsMoveEveryBit x r j hj).2

/-- Settles O6: the two shifts of a rotation change places, and left undoes right bit by bit. -/
theorem rotationsAreInverse : Obligations.RotationsAreInverse := fun x r _ hq =>
  ⟨rotateRight_eq_rotateLeft x hq, rotateLeft_rotateRight x r⟩

/-! ### The bytes of a word -/

/-- Bit `i` of a word is bit `i mod 8` of its byte `i / 8` (R10). -/
theorem getLsbD_eq_byteOf (v : Word32) (i : Nat) : v.getLsbD i = (byteOf v (i / 8)).getLsbD (i % 8) := by
  simp [byteOf, Nat.mod_lt, Nat.div_add_mod]

/-- A word is its four bytes (R10). -/
theorem eq_of_byteOf_eq {v w : Word32} (h : ∀ j < 4, byteOf v j = byteOf w j) : v = w := by
  refine BitVec.eq_of_getLsbD_eq fun i hi => ?_
  rw [getLsbD_eq_byteOf v, getLsbD_eq_byteOf w, h (i / 8) (by omega)]

/-- Rearranging the bytes twice gives the word back, since `3 - (3 - j) = j` (R114). -/
theorem rearrangeBytes_rearrangeBytes (v : Word32) : rearrangeBytes (rearrangeBytes v) = v := by
  refine eq_of_byteOf_eq fun j hj => ?_
  rw [byteOf_rearrangeBytes _ hj, byteOf_rearrangeBytes _ (by omega), Nat.sub_sub_self (by omega)]

/-- Settles O7: byte `j` goes to byte `3 - j`, and twice is back where it was. -/
theorem rearrangeBytesReversesTheBytes : Obligations.RearrangeBytesReversesTheBytes := fun v =>
  ⟨fun _ hj => byteOf_rearrangeBytes v hj, rearrangeBytes_rearrangeBytes v⟩

end Sys2Proof.Machine
end

section
/-! SUPPORT. The codec (41_hex_codec.md): what a valid string is and when it decodes (R137), and the round trip
of the encoder and the decoder (R135), both read nibble by nibble. -/

namespace Sys2Proof.Machine

/-! ### Valid strings -/

/-- A valid string has its length and, at every offset, a valid character (R137). -/
theorem validHex_iff (s : Text) (len : Nat) : validHex s len = true ↔
    s.length = len ∧ ∀ (k : Nat) (h : k < s.length), validChar s[k] = true := by
  rw [validHex, Bool.and_eq_true, beq_iff_eq, List.all_eq_true, List.forall_mem_iff_forall_getElem]

/-- A key of another length than 32 has no low half, and so no value (R133, R151). -/
theorem decodeKey_of_length_ne {key : Text} (h : key.length ≠ 32) : decodeKey key = none := by
  rw [decodeKey, decodeHexKeyLow, if_neg h]
  cases decodeHexKeyHigh key <;> rfl

/-- Settles O9: both decodes run the loop over all their characters, and the key decode needs 32 of them. -/
theorem decodeSucceedsExactlyOnValidHex : Obligations.DecodeSucceedsExactlyOnValidHex := by
  refine ⟨validHex_iff, decodeHex_isSome, fun key => ?_⟩
  by_cases hlen : key.length = 32
  · exact decodeKey_isSome hlen
  · rw [decodeKey_of_length_ne hlen]
    simp [validHex, hlen]

/-- Settles O10: the bits named are the word's nibble `k`, which is the digit of character `k`. -/
theorem decodedNibbleIsItsCharacter : Obligations.DecodedNibbleIsItsCharacter :=
  fun _ _ h _ hk => hexval_of_decodeHex h hk

/-! ### The encoder -/

/-- The code of a digit is a valid character (R131). -/
@[simp] theorem validChar_hexchar (d : Nibble) : validChar (hexchar d) = true := by
  rw [validChar, (hexval_eq_some (hexchar d) d).mpr rfl, Option.isSome_some]

/-- An encoded word has sixteen characters (R134). -/
@[simp] theorem encodeHex_length (v : Word64) : (encodeHex v).length = 16 := by simp [encodeHex]

/-- Character `k` of an encoded word is the code of its nibble `k` (R134). -/
theorem encodeHex_getElem (v : Word64) {k : Nat} (hk : k < (encodeHex v).length) :
    (encodeHex v)[k] = hexchar (nibbleOf v k) := by simp [encodeHex]

/-- An encoded word is a valid block (R134, R137). -/
theorem validBlock_encodeHex (v : Word64) : ValidBlock (encodeHex v) :=
  (validHex_iff _ _).mpr ⟨encodeHex_length v, fun k hk => by rw [encodeHex_getElem, validChar_hexchar]⟩

/-! ### The round trip -/

/-- Bit `i` of a word is bit `i mod 4` of its nibble `15 - i / 4`, the nibbles counted from the most significant
one (R134). -/
theorem getLsbD_eq_nibbleOf (v : Word64) {i : Nat} (hi : i < 64) :
    v.getLsbD i = (nibbleOf v (15 - i / 4)).getLsbD (i % 4) := by
  have hpos : 60 - 4 * (15 - i / 4) + i % 4 = i := by omega
  simp [nibbleOf, Nat.mod_lt, hpos]

/-- Words with the same text are the same word: a code determines its digit, and the nibbles the word (R131,
R134). -/
theorem encodeHex_injective : Function.Injective encodeHex := by
  intro v w h
  have hnibble : ∀ k < 16, nibbleOf v k = nibbleOf w k := by
    intro k hk
    have hchar : hexchar (nibbleOf v k) = hexchar (nibbleOf w k) := by
      rw [← encodeHex_getElem v (by simpa), ← encodeHex_getElem w (by simpa)]
      simp only [h]
    have hdigit := (hexval_eq_some _ _).mpr hchar
    rwa [(hexval_eq_some _ _).mpr rfl, Option.some_inj, eq_comm] at hdigit
  refine BitVec.eq_of_getLsbD_eq fun i hi => ?_
  rw [getLsbD_eq_nibbleOf v hi, getLsbD_eq_nibbleOf w hi, hnibble _ (by omega)]

/-- Encoding a decoded string gives the string back, character by character (R135). -/
theorem encodeHex_of_decodeHex {s : Text} {v : Word64} (h : decodeHex s = some v) : encodeHex v = s := by
  have hvalid : validHex s 16 = true := by rw [← decodeHex_isSome, h, Option.isSome_some]
  have hlen := ((validHex_iff s 16).mp hvalid).1
  refine List.ext_getElem (by rw [encodeHex_length, hlen]) fun k hk hks => ?_
  have hdigit := hexval_of_decodeHex h (hlen ▸ hks)
  rw [List.getElem?_eq_getElem hks, Option.bind_some] at hdigit
  rw [encodeHex_getElem, (hexval_eq_some _ _).mp hdigit]

/-- A valid block has a value, whose encoding it is (R135, R137). -/
theorem exists_decodeHex_of_validBlock {s : Text} (h : ValidBlock s) :
    ∃ v, decodeHex s = some v ∧ encodeHex v = s := by
  obtain ⟨v, hv⟩ := Option.isSome_iff_exists.mp ((decodeHex_isSome s).trans h)
  exact ⟨v, hv, encodeHex_of_decodeHex hv⟩

/-- Settles O11: an encoded word decodes to some word with the same encoding, which is that word. -/
theorem codecRoundTrip : Obligations.CodecRoundTrip := by
  refine ⟨fun v => ?_, fun _ => exists_decodeHex_of_validBlock⟩
  obtain ⟨w, hw, henc⟩ := exists_decodeHex_of_validBlock (validBlock_encodeHex v)
  rw [hw, encodeHex_injective henc]

end Sys2Proof.Machine
end

section
/-! SUPPORT. The key schedule (42_key_schedule.md): its recurrence with the bits of `Z0` (R152 to R156), and the
way back from four subkeys in a row to all of them and to the key (R157). -/

namespace Sys2Proof.Machine

/-! ### The recurrence with the bits of the constant -/

/-- The bit of `z` that turn `i` of the loop reads is bit `i` of the loaded word (R116, R153). -/
theorem zBit_ushiftRight (z : Word64) (i : Nat) :
    zBit (z >>> i) = (BitVec.ofBool (z.getLsbD i)).setWidth 32 := by
  refine BitVec.eq_of_getLsbD_eq fun j _ => ?_
  by_cases hj : j = 0 <;> simp [zBit, hj]

/-- Settles O14: the seeds are the first window of the expansion, and turn `i - 4` of its loop, which reads bit
`i - 4` of `Z0`, makes subkey `i`. -/
theorem scheduleSatisfiesTheRecurrence : Obligations.ScheduleSatisfiesTheRecurrence := by
  intro key high low hkey
  have hlen := scheduleOf_length high low
  refine ⟨scheduleOf high low, keySchedule_eq_some.mpr ⟨high, low, hkey, rfl⟩, hlen, ?_, fun i hlow hhigh => ?_⟩
  · exact expandFrom_take 40 constZ0 (seedWindow high low)
  · have getD_eq {j : Nat} (hj : j < 44) :
        (scheduleOf high low).getD j 0 = (scheduleOf high low)[j]'(hlen ▸ hj) :=
      List.getD_eq_getElem _ _ _
    rw [getD_eq hhigh, getD_eq (by omega), getD_eq (by omega), getD_eq (by omega),
      scheduleOf_recurrence high low hlow hhigh, nextSubkey, zBit_ushiftRight, constZ0, constC]

/-! ### The way back: from any window to the first, and from the first to the key -/

/-- The recurrence can be solved for the oldest of its subkeys, which enters it by XOR alone (R157). -/
theorem nextSubkey_back4_injective (z : Word64) (back3 back1 : Word32) :
    Function.Injective fun back4 => nextSubkey z back4 back3 back1 := by
  intro a b h
  simpa only [nextSubkey, BitVec.xor_left_inj, BitVec.xor_right_inj] using h

/-- So a window is determined by the one after it (R157). -/
theorem Window.advance_injective (z : Word64) : Function.Injective (Window.advance z) := by
  rintro ⟨a0, a1, a2, a3⟩ ⟨b0, b1, b2, b3⟩ h
  obtain ⟨rfl, rfl, rfl, hnext⟩ := Window.mk.inj h
  exact congrArg (Window.mk · a1 a2 a3) (nextSubkey_back4_injective z a1 a3 hnext)

/-- Expansions that agree on four subkeys in a row start with the same window (R157). -/
theorem eq_of_expandFrom_drop_take_eq {more i : Nat} {z : Word64} {w v : Window} (hi : i ≤ more)
    (h : ((expandFrom more z w).drop i).take 4 = ((expandFrom more z v).drop i).take 4) : w = v := by
  induction i generalizing more z w v with
  | zero =>
    rw [List.drop_zero, List.drop_zero, expandFrom_take, expandFrom_take] at h
    cases w
    cases v
    simpa using h
  | succ i ih =>
    obtain ⟨more, rfl⟩ := Nat.exists_eq_add_of_lt hi
    exact Window.advance_injective z (ih (by omega) h)

/-- `rearrangeBytes` loses nothing, being its own inverse (R114). -/
theorem rearrangeBytes_injective : Function.Injective rearrangeBytes :=
  Function.Involutive.injective rearrangeBytes_rearrangeBytes

/-- A word is its two halves (R152). -/
theorem joinHalves_highHalf_lowHalf (v : Word64) : joinHalves (highHalf v) (lowHalf v) = v := by
  rw [joinHalves_eq_append]
  exact BitVec.extractLsb'_append_extractLsb' (x := v) (w := 32) (len := 32)

/-- Words with the same halves are the same word (R152). -/
theorem eq_of_halves_eq {v w : Word64} (hhigh : highHalf v = highHalf w) (hlow : lowHalf v = lowHalf w) :
    v = w := by
  rw [← joinHalves_highHalf_lowHalf v, hhigh, hlow, joinHalves_highHalf_lowHalf]

/-- The seeds determine the two halves of the key (R152). -/
theorem seedWindow_inj {high low high' low' : Word64} (h : seedWindow high low = seedWindow high' low') :
    high = high' ∧ low = low' := by
  obtain ⟨h0, h1, h2, h3⟩ := Window.mk.inj h
  exact ⟨eq_of_halves_eq (rearrangeBytes_injective h0) (rearrangeBytes_injective h1),
    eq_of_halves_eq (rearrangeBytes_injective h2) (rearrangeBytes_injective h3)⟩

/-- The key decode gives the values of the two halves of the string (R133, R151). -/
theorem decodeHex_of_decodeKey {key : Text} {high low : Word64} (h : decodeKey key = some (high, low)) :
    decodeHex (keyHighText key) = some high ∧ decodeHex (keyLowText key) = some low := by
  rw [decodeKey] at h
  split at h
  next hhigh hlow =>
    cases h
    rw [decodeHexKeyLow] at hlow
    exact ⟨hhigh, (Option.ite_none_right_eq_some.mp hlow).2⟩
  next => cases h

/-- A key that decodes is the encoding of its two halves, one after the other (R135, R151). -/
theorem encodeHex_append_of_decodeKey {key : Text} {high low : Word64} (h : decodeKey key = some (high, low)) :
    encodeHex high ++ encodeHex low = key := by
  obtain ⟨hhigh, hlow⟩ := decodeHex_of_decodeKey h
  rw [encodeHex_of_decodeHex hhigh, encodeHex_of_decodeHex hlow]
  exact List.take_append_drop 16 key

/-- Settles O15: four subkeys in a row lead back to the seeds, the seeds to the halves of the key, and these to its
characters. -/
theorem fourSubkeysDetermineTheKey : Obligations.FourSubkeysDetermineTheKey := by
  intro key key' ks ks' i hks hks' hi hwindow
  obtain ⟨high, low, hkey, rfl⟩ := keySchedule_eq_some.mp hks
  obtain ⟨high', low', hkey', rfl⟩ := keySchedule_eq_some.mp hks'
  obtain ⟨rfl, rfl⟩ := seedWindow_inj (eq_of_expandFrom_drop_take_eq hi hwindow)
  exact ⟨rfl, (encodeHex_append_of_decodeKey hkey).symm.trans (encodeHex_append_of_decodeKey hkey')⟩

end Sys2Proof.Machine
end

section
/-! SUPPORT. The round function (43_round_engine.md R170) bit by bit, and the rounds, which undo each other (R177). -/

namespace Sys2Proof.Machine

/-! ### The round function -/

/-- Bit `j` of the round function from three bits of the word, 1, 8 and 2 places below (R170). -/
theorem getLsbD_roundF (x : Word32) {j : Nat} (hj : j < 32) : (roundF x).getLsbD j =
    ((x.getLsbD ((j + 31) % 32) && x.getLsbD ((j + 24) % 32)) ^^ x.getLsbD ((j + 30) % 32)) := by
  rw [roundF, rotl1, rotl8, rotl2, BitVec.getLsbD_xor, BitVec.getLsbD_and, getLsbD_rotateLeft x _ hj,
    getLsbD_rotateLeft x _ hj, getLsbD_rotateLeft x _ hj]
  rfl

/-- The round function commutes with rotation: moving up and then reading `d` places along is reading there and then
moving up (R170). -/
theorem roundF_rotateLeft (x : Word32) (r : RotAmount) : roundF (rotateLeft x r) = rotateLeft (roundF x) r := by
  refine BitVec.eq_of_getLsbD_eq fun j hj => ?_
  have hr := r.property
  have place (d : Nat) : ((j + d) % 32 + 32 - r.val) % 32 = ((j + 32 - r.val) % 32 + d) % 32 := by omega
  rw [getLsbD_rotateLeft _ r hj, getLsbD_roundF _ hj, getLsbD_roundF _ (Nat.mod_lt _ (by decide))]
  simp only [getLsbD_rotateLeft x r (Nat.mod_lt _ (by decide : 32 > 0)), place]

/-- Settles O8: each bit is that of three rotations, and rotations commute. -/
theorem roundFunctionBitByBit : Obligations.RoundFunctionBitByBit := fun x =>
  ⟨fun _ hj => getLsbD_roundF x hj, roundF_rotateLeft x⟩

/-! ### Rounds forwards and backwards -/

/-- The half an encryption round mixes is mixed with the same word again (R174, R175, R177). -/
theorem decryptRound_encryptRound (b : BlockState) (k : Word32) : decryptRound (encryptRound b k) k = b := by
  simp [decryptRound, encryptRound, BitVec.xor_assoc]

/-- The half a decryption round mixes is mixed with the same word again (R174, R175, R177). -/
theorem encryptRound_decryptRound (b : BlockState) (k : Word32) : encryptRound (decryptRound b k) k = b := by
  simp [decryptRound, encryptRound, BitVec.xor_assoc]

/-- Steps that are undone one by one are undone together, taken in the opposite order (R177). -/
theorem foldl_reverse_foldl {f g : BlockState → Word32 → BlockState} (hundo : ∀ b k, g (f b k) k = b)
    (ks : List Word32) (b : BlockState) : ks.reverse.foldl g (ks.foldl f b) = b := by
  induction ks generalizing b with
  | nil => rfl
  | cons k ks ih =>
    rw [List.reverse_cons, List.foldl_concat, List.foldl_cons, ih, hundo]

/-- Encryption rounds undo the decryption rounds with the subkeys in the opposite order (R177). -/
theorem foldl_encryptRound_foldl_decryptRound (ks : List Word32) (b : BlockState) :
    ks.foldl encryptRound (ks.reverse.foldl decryptRound b) = b := by
  simpa using foldl_reverse_foldl encryptRound_decryptRound ks.reverse b

/-- Settles O16: both ways for one round, and so for any list of subkeys. -/
theorem roundsUndoEachOther : Obligations.RoundsUndoEachOther :=
  ⟨decryptRound_encryptRound, encryptRound_decryptRound, foldl_reverse_foldl decryptRound_encryptRound,
    foldl_encryptRound_foldl_decryptRound⟩

end Sys2Proof.Machine
end

section
/-! SUPPORT. `bswap64` (00_scope.md glossary) on words and, the same, on the strings that encode them. -/

namespace Sys2Proof.Machine

/-- `bswap64` on a word: its halves change places, and each has its bytes reversed (00_scope.md glossary). This is
what the ENCRYPT split and the reassembly do when no round stands between them (R172, R176). -/
def byteSwap (v : Word64) : Word64 := joinHalves (rearrangeBytes (lowHalf v)) (rearrangeBytes (highHalf v))

/-- Byte `7 - j` of the swapped word is byte `j` of the word (00_scope.md glossary). -/
theorem extractLsb'_byteSwap (v : Word64) {j : Nat} (hj : j < 8) :
    (byteSwap v).extractLsb' (56 - 8 * j) 8 = v.extractLsb' (8 * j) 8 := by
  by_cases hhigh : j < 4
  · rw [byteSwap, ← byteOf_highHalf_sub _ hhigh, highHalf_joinHalves, byteOf_rearrangeBytes _ (by omega),
      Nat.sub_sub_self (by omega), byteOf_lowHalf v hhigh]
  · obtain ⟨i, rfl⟩ := Nat.exists_eq_add_of_le (Nat.le_of_not_lt hhigh)
    rw [byteSwap, show 56 - 8 * (4 + i) = 24 - 8 * i by omega, ← byteOf_lowHalf_sub _ (by omega),
      lowHalf_joinHalves, byteOf_rearrangeBytes _ (by omega), Nat.sub_sub_self (by omega),
      byteOf_highHalf v (by omega), Nat.mul_add]

/-- Swapping twice gives the word back. -/
theorem byteSwap_byteSwap (v : Word64) : byteSwap (byteSwap v) = v := by
  rw [byteSwap, byteSwap, highHalf_joinHalves, lowHalf_joinHalves, rearrangeBytes_rearrangeBytes,
    rearrangeBytes_rearrangeBytes, joinHalves_highHalf_lowHalf]

/-- The two characters of byte `7 - j` of a word, at the offsets `2j` and `2j + 1` of its string (R55, R134). -/
def charPair (v : Word64) (j : Nat) : Text := [hexchar (nibbleOf v (2 * j)), hexchar (nibbleOf v (2 * j + 1))]

/-- An encoded word is its eight pairs of characters (R55, R134). -/
theorem encodeHex_eq_flatMap (v : Word64) : encodeHex v = (List.range 8).flatMap (charPair v) := rfl

/-- `bswap64` on a string of pairs puts them in the opposite order (00_scope.md glossary). -/
theorem bswapText_flatMap_charPair (v : Word64) (js : List Nat) :
    bswapText (js.flatMap (charPair v)) = js.reverse.flatMap (charPair v) := by
  induction js with
  | nil => rfl
  | cons j js ih =>
    rw [List.reverse_cons, List.flatMap_append, ← ih, List.flatMap_singleton]
    rfl

/-- A byte determines its two nibbles. -/
theorem nibbles_inj {a b c d : Nibble} (h : a ++ b = c ++ d) : a = c ∧ b = d := by
  have hfirst : a = c := by
    simpa only [BitVec.extractLsb'_append_eq_left] using congrArg (BitVec.extractLsb' 4 4) h
  subst hfirst
  exact ⟨rfl, (BitVec.append_right_inj a).mp h⟩

/-- Pair `j` of the swapped word is pair `7 - j` of the word: both are the two nibbles of one byte (R55). -/
theorem charPair_byteSwap (v : Word64) {j : Nat} (hj : j < 8) : charPair (byteSwap v) j = charPair v (7 - j) := by
  have hplace : 8 * j = 56 - 8 * (7 - j) := by omega
  have hbyte : nibbleOf (byteSwap v) (2 * j) ++ nibbleOf (byteSwap v) (2 * j + 1) =
      nibbleOf v (2 * (7 - j)) ++ nibbleOf v (2 * (7 - j) + 1) := by
    rw [nibbleOf_append_nibbleOf _ hj, nibbleOf_append_nibbleOf _ (by omega), extractLsb'_byteSwap v hj, hplace]
  obtain ⟨hfirst, hsecond⟩ := nibbles_inj hbyte
  rw [charPair, charPair, hfirst, hsecond]

/-- `bswap64` of the string of a word is the string of its swapped word (00_scope.md glossary). -/
theorem bswapText_encodeHex (v : Word64) : bswapText (encodeHex v) = encodeHex (byteSwap v) := by
  have hpairs : (List.range 8).flatMap (charPair (byteSwap v)) =
      (List.range 8).flatMap fun j => charPair v (7 - j) :=
    List.flatMap_congr fun j hj => charPair_byteSwap v (List.mem_range.mp hj)
  rw [encodeHex_eq_flatMap, encodeHex_eq_flatMap, bswapText_flatMap_charPair, hpairs]
  rfl

end Sys2Proof.Machine
end

section
/-! SUPPORT. The two commands (43_round_engine.md R181, R182): when they fail, and what they do to the word of a
block, from which the laws of R185, R186 and R188 about strings follow. -/

namespace Sys2Proof.Machine

/-! ### When a command fails -/

/-- A valid key has a schedule (R137, R155). -/
theorem exists_keySchedule_of_validKey {key : Text} (h : ValidKey key) : ∃ ks, keySchedule key = some ks := by
  obtain ⟨-, -, hkey⟩ := decodeSucceedsExactlyOnValidHex
  obtain ⟨⟨high, low⟩, hhalves⟩ := Option.isSome_iff_exists.mp ((hkey key).trans h)
  exact ⟨_, keySchedule_eq_some.mpr ⟨high, low, hhalves, rfl⟩⟩

/-- What a command does to the word of a block: its split, all its rounds, the reassembly (R178). -/
def commandWord (op : BitVec 1) (ks : List Word32) (v : Word64) : Word64 :=
  reassembleHalves (roundsDone op ks ks.length v)

/-- A command on the string of a word (R181, R182). -/
theorem commandText_encodeHex {key : Text} {ks : List Word32} (op : BitVec 1) (hk : keySchedule key = some ks)
    (v : Word64) : commandText op (encodeHex v) key = some (encodeHex (commandWord op ks v)) :=
  commandText_eq_some op hk (codecRoundTrip.1 v)

/-- A valid block is the string of a word (R135). -/
theorem exists_encodeHex_of_validBlock {s : Text} (h : ValidBlock s) : ∃ v, encodeHex v = s := by
  obtain ⟨v, -, hv⟩ := exists_decodeHex_of_validBlock h
  exact ⟨v, hv⟩

/-- A command gives a result for valid strings, and the result is a valid block (R181, R182). -/
theorem exists_commandText_of_valid (op : BitVec 1) {block key : Text} (hblock : ValidBlock block)
    (hkey : ValidKey key) : ∃ out, commandText op block key = some out ∧ ValidBlock out := by
  obtain ⟨ks, hks⟩ := exists_keySchedule_of_validKey hkey
  obtain ⟨v, rfl⟩ := exists_encodeHex_of_validBlock hblock
  exact ⟨_, commandText_encodeHex op hks v, validBlock_encodeHex _⟩

/-- A command with an invalid string has no result: one of its two decodes has none (R181, R182, R240). -/
theorem commandText_of_not_valid (op : BitVec 1) {block key : Text} (h : ¬ (ValidBlock block ∧ ValidKey key)) :
    commandText op block key = none := by
  obtain ⟨-, hblock, hkey⟩ := decodeSucceedsExactlyOnValidHex
  rw [ValidBlock, ValidKey, ← hblock, ← hkey, not_and_or, Option.not_isSome_iff_eq_none,
    Option.not_isSome_iff_eq_none] at h
  exact h.elim (commandText_of_badBlock op) (commandText_of_badKey op)

/-- Settles O17: valid strings have a result, which is valid, and the others have none. -/
theorem commandFailsExactlyOnInvalidStrings : Obligations.CommandFailsExactlyOnInvalidStrings := by
  intro op block key
  by_cases hvalid : ValidBlock block ∧ ValidKey key
  · obtain ⟨hblock, hkey⟩ := hvalid
    obtain ⟨out, hout, houtValid⟩ := exists_commandText_of_valid op hblock hkey
    simpa [hout, hblock, hkey] using houtValid
  · simp [commandText_of_not_valid op hvalid, hvalid]

/-! ### One command after the other, on words -/

/-- ENCRYPT on words: the subkeys in their order (R181). -/
theorem commandWord_encrypt (ks : List Word32) (v : Word64) :
    commandWord 0 ks v = reassembleHalves (ks.foldl encryptRound (splitForEncrypt v)) := by
  rw [commandWord, roundsDone, if_pos rfl, List.take_length]

/-- DECRYPT on words: the subkeys in the opposite order (R182). -/
theorem commandWord_decrypt (ks : List Word32) (v : Word64) :
    commandWord 1 ks v = reassembleHalves (ks.reverse.foldl decryptRound (splitForDecrypt v)) := by
  rw [commandWord, roundsDone, if_neg (by decide), List.take_of_length_le (by simp)]

/-- DECRYPT splits a reassembled word into the halves it was made of (R173, R176). -/
theorem splitForDecrypt_reassembleHalves (b : BlockState) : splitForDecrypt (reassembleHalves b) = b := by
  rw [splitForDecrypt, reassembleHalves, highHalf_joinHalves, lowHalf_joinHalves]

/-- ENCRYPT splits a reassembled word into the halves it was made of when its bytes are swapped first (R172, R176). -/
theorem splitForEncrypt_byteSwap_reassembleHalves (b : BlockState) :
    splitForEncrypt (byteSwap (reassembleHalves b)) = b := by
  simp only [splitForEncrypt, byteSwap, reassembleHalves, highHalf_joinHalves, lowHalf_joinHalves,
    rearrangeBytes_rearrangeBytes]

/-- The rounds of DECRYPT take the BlockState back to the split of ENCRYPT, whose reassembly is the word with its
bytes swapped (R185). -/
theorem commandWord_decrypt_encrypt (ks : List Word32) (v : Word64) :
    commandWord 1 ks (commandWord 0 ks v) = byteSwap v := by
  rw [commandWord_encrypt, commandWord_decrypt, splitForDecrypt_reassembleHalves,
    foldl_reverse_foldl decryptRound_encryptRound]
  rfl

/-- The rounds of ENCRYPT take the BlockState back to the split of DECRYPT, whose reassembly is the word (R186). -/
theorem commandWord_encrypt_byteSwap_decrypt (ks : List Word32) (v : Word64) :
    commandWord 0 ks (byteSwap (commandWord 1 ks v)) = v := by
  rw [commandWord_encrypt, commandWord_decrypt, splitForEncrypt_byteSwap_reassembleHalves,
    foldl_encryptRound_foldl_decryptRound]
  exact joinHalves_highHalf_lowHalf v

/-! ### The laws about strings -/

/-- Settles O18: on the word of the block, the rounds cancel and the bytes are left swapped. -/
theorem decryptOfEncryptIsTheByteReversal : Obligations.DecryptOfEncryptIsTheByteReversal := by
  intro P K hP hK
  obtain ⟨ks, hks⟩ := exists_keySchedule_of_validKey hK
  obtain ⟨v, rfl⟩ := exists_encodeHex_of_validBlock hP
  have hdecrypt : decryptText (encodeHex (commandWord 0 ks v)) K = some (bswapText (encodeHex v)) := by
    rw [bswapText_encodeHex, ← commandWord_decrypt_encrypt ks v]
    exact commandText_encodeHex 1 hks _
  exact ⟨_, commandText_encodeHex 0 hks v, hdecrypt, by rw [hdecrypt, Option.some_inj]⟩

/-- Settles O19: on the word of the block, the swap undoes that of the split, and the rounds cancel. -/
theorem encryptOfReversedDecryptIsTheBlock : Obligations.EncryptOfReversedDecryptIsTheBlock := by
  intro C K hC hK
  obtain ⟨ks, hks⟩ := exists_keySchedule_of_validKey hK
  obtain ⟨v, rfl⟩ := exists_encodeHex_of_validBlock hC
  refine ⟨_, commandText_encodeHex 1 hks v, ?_⟩
  have hencrypt := commandText_encodeHex 0 hks (byteSwap (commandWord 1 ks v))
  rwa [commandWord_encrypt_byteSwap_decrypt, ← bswapText_encodeHex] at hencrypt

/-- Each command has a left and a right inverse on words, made of the other command and the byte swap (R188). -/
theorem commandWord_bijective (op : BitVec 1) (ks : List Word32) : Function.Bijective (commandWord op ks) := by
  have hswap : Function.Involutive byteSwap := byteSwap_byteSwap
  have hdecrypt : commandWord 1 ks ∘ commandWord 0 ks = byteSwap := funext (commandWord_decrypt_encrypt ks)
  have hencrypt : commandWord 0 ks ∘ byteSwap ∘ commandWord 1 ks = id :=
    funext (commandWord_encrypt_byteSwap_decrypt ks)
  obtain rfl | rfl := BitVec.eq_zero_or_eq_one op
  · exact ⟨.of_comp (hdecrypt ▸ hswap.injective), .of_comp (hencrypt ▸ Function.surjective_id)⟩
  · exact ⟨.of_comp (f := commandWord 0 ks ∘ byteSwap) (hencrypt ▸ Function.injective_id),
      .of_comp (hdecrypt ▸ hswap.surjective)⟩

/-- Settles O20: the codec carries the bijection of words over to the valid blocks. -/
theorem commandsAreBijections : Obligations.CommandsAreBijections := by
  intro op K hK
  refine ⟨fun P hP => exists_commandText_of_valid op hP hK, fun E hE => ?_⟩
  obtain ⟨ks, hks⟩ := exists_keySchedule_of_validKey hK
  obtain ⟨hinj, hsurj⟩ := commandWord_bijective op ks
  obtain ⟨w, rfl⟩ := exists_encodeHex_of_validBlock hE
  obtain ⟨v, rfl⟩ := hsurj w
  refine ⟨encodeHex v, ⟨validBlock_encodeHex v, commandText_encodeHex op hks v⟩, fun Q hQ hresult => ?_⟩
  obtain ⟨u, rfl⟩ := exists_encodeHex_of_validBlock hQ
  rw [commandText_encodeHex op hks u, Option.some_inj] at hresult
  rw [hinj (encodeHex_injective hresult)]

end Sys2Proof.Machine
end

section
/-! SUPPORT. The commands, one micro-step at a time (44_interface_sequencer.md R205 to R215): what each answers, in
the words of its rule. -/

namespace Sys2Proof.Machine

/-! ### A command and the micro-step its phase selects -/

/-- The command of a command bit is one of the two (R81). -/
theorem decodeCommand_mem (op : BitVec 1) (block key : Text) :
    decodeCommand op block key ∈ [Instr.encrypt block key, .decrypt block key] := by
  unfold decodeCommand
  split <;> simp

/-- A micro-step that both commands share is what either of them runs (R62). -/
theorem exec_shared {block key : Text} {i : Instr} (hi : i ∈ [Instr.encrypt block key, .decrypt block key])
    {s u : State} (h : ∀ op split round, commandStep op split round block key s = u) : exec i s = .next u := by
  obtain rfl | rfl : i = .encrypt block key ∨ i = .decrypt block key := by simpa using hi
  · exact congrArg Host.Outcome.next (h 0 splitEncrypt roundEncrypt)
  · exact congrArg Host.Outcome.next (h 1 splitDecrypt roundDecrypt)

/-- Settles O36: a step answers in every state, and so does each of the 18 arms of `exec`. -/
theorem nothingFaultsOrIsRefused : Obligations.NothingFaultsOrIsRefused := by
  refine ⟨fun s => ⟨_, step_eq s⟩, fun i s => ?_⟩
  obtain ⟨op, block, key, rfl⟩ | ⟨code, hcode⟩ := eq_decodeCommand_or_char i
  · exact ⟨_, exec_decodeCommand op block key s⟩
  · obtain ⟨v, -, hexec⟩ := exists_digit_of_decodeChar hcode
    exact ⟨_, hexec s⟩

/-- In an accepting phase a command whose strings a port can carry is latched (R206). -/
theorem exec_accept (op : BitVec 1) (block : HexBlock) (key : HexKey) {s : State} (h : s.phase.accepting = true) :
    exec (decodeCommand op block.toList key.toList) s = .next { s with
      opR := op, blkR := block, keyR := key, done := false, err := false, phase := .keyDecode } := by
  rw [exec_decodeCommand]
  obtain hp | hp | hp := (accepting_iff _).mp h <;> simp only [commandStep, hp, acceptCommand_of_length] <;> rfl

/-- Settles O22: both commands are accepted alike, each with its own bit. -/
theorem commandsAreAccepted : Obligations.CommandsAreAccepted := by
  intro block key s hp
  have h := (accepting_iff _).mpr hp
  exact ⟨exec_accept 0 block key h, exec_accept 1 block key h⟩

/-! ### The key (42_key_schedule.md) -/

/-- A valid key has two halves, the values of its first and of its last sixteen characters (R97, R133, R151). -/
theorem exists_halves_of_validKey {key : Text} (h : ValidKey key) :
    ∃ high low, decodeHex (key.take 16) = some high ∧ decodeHexKeyLow key = some low ∧
      decodeKey key = some (high, low) := by
  obtain ⟨hlen, -⟩ := (validHex_iff key 32).mp h
  obtain ⟨⟨high, low⟩, hkey⟩ := Option.isSome_iff_exists.mp ((decodeKey_isSome hlen).trans h)
  obtain ⟨hhigh, hlow⟩ := decodeHex_of_decodeKey hkey
  exact ⟨high, low, hhigh, by rw [decodeHexKeyLow, if_pos hlen, hlow], hkey⟩

/-- An invalid key has no halves (R137, R151). -/
theorem decodeKey_of_not_valid {key : HexKey} (h : ¬ ValidKey key.toList) : decodeKey key.toList = none := by
  rwa [ValidKey, ← decodeKey_isSome (by simp), Option.not_isSome_iff_eq_none] at h

/-- An invalid block has no value (R137). -/
theorem decodeHex_of_not_valid {block : Text} (h : ¬ ValidBlock block) : decodeHex block = none := by
  rwa [ValidBlock, ← decodeHex_isSome, Option.not_isSome_iff_eq_none] at h

/-- Settles O24: the step is `keyDecode`, which asks whether the latched key has its two halves. -/
theorem keyDecodeStep : Obligations.KeyDecodeStep := by
  intro block key s hp i hi
  have hexec : exec i s = .next (keyDecode s) := exec_shared hi fun _ _ _ => by simp only [commandStep, hp]
  rw [hexec, keyDecode_eq]
  refine ⟨fun hvalid => ?_, fun hbad => ?_⟩
  · obtain ⟨high, low, hhigh, hlow, hkey⟩ := exists_halves_of_validKey hvalid
    exact ⟨high, low, hhigh, hlow, by rw [hkey]⟩
  · rw [decodeKey_of_not_valid (by simp [ValidKey, hbad])]
    rfl

/-- The low half as a slice of bits (R53). -/
theorem lowHalf_eq_extractLsb' (v : Word64) : lowHalf v = v.extractLsb' 0 32 :=
  BitVec.setWidth_eq_extractLsb' (by decide)

/-- Settles O25: the seeds are the rearranged halves. -/
theorem keySeedStep : Obligations.KeySeedStep := by
  intro block key s hp i hi
  have hexec : exec i s = .next (keySeed s) := exec_shared hi fun _ _ _ => by simp only [commandStep, hp]
  rw [hexec, keySeed_eq]
  simp only [seedWindow, lowHalf_eq_extractLsb']
  rfl

/-- A counter is at its last value 43 when its number is (R29). -/
theorem counter_eq_43 (n : Counter) : n = 43 ↔ n.toNat = 43 :=
  ⟨fun h => h ▸ rfl, fun h => BitVec.eq_of_toNat_eq h⟩

/-- Settles O26: the step is `keyExpand`, with every index in the register file. -/
theorem keyExpandStep : Obligations.KeyExpandStep := by
  rintro block key s m low high hp rfl i hi
  have hexec : exec i s = .next (keyExpand s) := exec_shared hi fun _ _ _ => by simp only [commandStep, hp]
  rw [hexec, keyExpand_eq s low (by omega)]
  simp only [counter_eq_43]
  rfl

/-! ### The block (43_round_engine.md) -/

/-- Settles O27: the step is `blockDecode`, which asks whether the latched block has a value. -/
theorem blockDecodeStep : Obligations.BlockDecodeStep := by
  intro block key s hp i hi
  have hexec : exec i s = .next (blockDecode s) := exec_shared hi fun _ _ _ => by simp only [commandStep, hp]
  rw [hexec, blockDecode_eq]
  refine ⟨fun hvalid => ?_, fun hbad => ?_⟩
  · obtain ⟨v, hv, -⟩ := exists_decodeHex_of_validBlock hvalid
    exact ⟨v, hv, by rw [hv]⟩
  · rw [decodeHex_of_not_valid (by simp [ValidBlock, hbad])]
    rfl

/-- Settles O28: each command runs its own form of SPLIT. -/
theorem splitStep : Obligations.SplitStep := by
  intro block key s hp
  have hencrypt : exec (.encrypt block key) s = .next (splitEncrypt s) := by
    simp only [exec, execEncrypt, commandStep, hp]
  have hdecrypt : exec (.decrypt block key) s = .next (splitDecrypt s) := by
    simp only [exec, execDecrypt, commandStep, hp]
  rw [hencrypt, hdecrypt, ← lowHalf_eq_extractLsb']
  exact ⟨rfl, rfl⟩

/-- Settles O29: each command runs its own form of ROUND, with its index in the register file. -/
theorem roundStep : Obligations.RoundStep := by
  rintro block key s m high hp rfl
  have hencrypt : exec (.encrypt block key) s = .next (roundEncrypt s) := by
    simp only [exec, execEncrypt, commandStep, hp]
  have hdecrypt : exec (.decrypt block key) s = .next (roundDecrypt s) := by
    simp only [exec, execDecrypt, commandStep, hp]
  rw [hencrypt, hdecrypt, roundEncrypt_eq s (by omega), roundDecrypt_eq s (by omega)]
  simp only [counter_eq_43, and_self]

/-- Settles O30: the two halves joined are their concatenation. -/
theorem reassembleStep : Obligations.ReassembleStep := by
  intro block key s hp i hi
  have hexec : exec i s = .next (reassemble s) := exec_shared hi fun _ _ _ => by simp only [commandStep, hp]
  rw [hexec, ← joinHalves_eq_append]
  rfl

/-- The encoded block, character by character (R134). -/
theorem encodeBlock_eq_ofFn (v : Word64) :
    encodeBlock v = Vector.ofFn fun k : Fin 16 => hexchar (v.extractLsb' (60 - 4 * k.val) 4) := by
  refine Vector.ext fun k hk => ?_
  rw [Vector.getElem_ofFn]
  exact encodeHex_getElem v (by simpa using hk)

/-- Settles O31: the step is `encodeResult`, which writes the encoded word. -/
theorem encodeStep : Obligations.EncodeStep := by
  intro block key s hp i hi
  have hexec : exec i s = .next (encodeResult s) := exec_shared hi fun _ _ _ => by simp only [commandStep, hp]
  rw [hexec, ← encodeBlock_eq_ofFn]
  rfl

end Sys2Proof.Machine
end

section
/-! SUPPORT. The step of the machine (44_interface_sequencer.md R205, R206 to R217): it runs the command on the ports
or the latched one, and what it does not depend on. -/

namespace Sys2Proof.Machine

/-! ### A step runs its command -/

/-- Settles O33: the step fetches those bytes, decodes them, and ends after the instruction. -/
theorem stepRunsTheFetchedCommand : Obligations.StepRunsTheFetchedCommand := by
  intro s t i hr hstart hdecode hexec
  have hbytes : decode (fetchBytes s) = .ok (i, []) := hdecode
  have hfetch : fetchCommand s = .ok i := by rw [fetchCommand, hbytes]
  have hgo : ¬ (s.phase.accepting && !s.ports.start) = true := by simpa using hstart
  rw [step, sequencerStep, if_neg (by simp [hr]), if_neg hgo, hfetch]
  simp only [hexec]
  rfl

/-- A step from a busy phase runs the latched command (R35, R202). -/
theorem step_of_latched {s t : State} (hr : s.ports.rst = false) (hbusy : s.phase.accepting = false)
    (hexec : exec (decodeCommand s.opR s.blkR.toList s.keyR.toList) s = .next t) : step s = .next (endStep t) := by
  refine stepRunsTheFetchedCommand s t _ hr (by simp [hbusy]) ?_ hexec
  rw [if_neg (by simp [hbusy])]
  simpa using decode_command s.opR s.blkR.toList s.keyR.toList [] (by simp) (by simp)

/-- A step from an accepting phase with `start = 1` accepts the command on the ports (R206). -/
theorem step_accept {s : State} (hr : s.ports.rst = false) (hp : s.phase.accepting = true)
    (hs : s.ports.start = true) :
    step s = .next (endStep (accept s.ports.op s.ports.blockIn s.ports.keyIn s)) := by
  rw [step_of_noReset hr, microStep_accept hp hs]

/-- Settles O32: ACCEPT and hold from an accepting phase; from a busy one the latched command's micro-step, which
O24 to O31 say for either command. -/
theorem stepRelation : Obligations.StepRelation := by
  intro s hr
  have hmem := decodeCommand_mem s.opR s.blkR.toList s.keyR.toList
  have run {p : Phase} {t : State} (hp : s.phase = p) (hbusy : p.accepting = false) :
      exec (decodeCommand s.opR s.blkR.toList s.keyR.toList) s = .next t → step s = .next (endStep t) :=
    step_of_latched hr (hp ▸ hbusy)
  refine ⟨step_accept hr, fun hp hvalid => ?_, fun hp hbad => ?_, fun hp => ?_, fun m low high hp hn => ?_,
    fun hp hvalid => ?_, fun hp hbad => ?_, fun hp hop => ?_, fun hp hop => ?_, fun m high hp hop hn => ?_,
    fun m high hp hop hn => ?_, fun hp => ?_, fun hp => ?_, fun hp hs => ?_⟩
  · obtain ⟨high, low, hhigh, hlow, hexec⟩ := (keyDecodeStep _ _ s hp _ hmem).1 hvalid
    exact ⟨high, low, hhigh, hlow, run hp rfl hexec⟩
  · exact run hp rfl ((keyDecodeStep _ _ s hp _ hmem).2 hbad)
  · exact run hp rfl (keySeedStep _ _ s hp _ hmem)
  · exact run hp rfl (keyExpandStep _ _ s m low high hp hn _ hmem)
  · obtain ⟨v, hv, hexec⟩ := (blockDecodeStep _ _ s hp _ hmem).1 hvalid
    exact ⟨v, hv, run hp rfl hexec⟩
  · exact run hp rfl ((blockDecodeStep _ _ s hp _ hmem).2 hbad)
  · exact run hp rfl (hop ▸ (splitStep s.blkR.toList s.keyR.toList s hp).1)
  · exact run hp rfl (hop ▸ (splitStep s.blkR.toList s.keyR.toList s hp).2)
  · exact run hp rfl (hop ▸ (roundStep s.blkR.toList s.keyR.toList s m high hp hn).1)
  · exact run hp rfl (hop ▸ (roundStep s.blkR.toList s.keyR.toList s m high hp hn).2)
  · exact run hp rfl (reassembleStep _ _ s hp _ hmem)
  · exact run hp rfl (encodeStep _ _ s hp _ hmem)
  · rw [step_of_noReset hr, microStep_hold hp hs]

/-! ### The decode steps run their characters -/

/-- Running the characters of a string is the decode loop on the accumulator (R132). -/
theorem runAll_of_charsOf {text : Text} {chars : List Instr} (h : charsOf text = some chars) (s : State) :
    ∃ v, decodeFrom s.acc text = some v ∧ runAll chars s = .next { s with acc := v } := by
  induction text generalizing chars s with
  | nil => cases h; exact ⟨s.acc, rfl, rfl⟩
  | cons c cs ih =>
    rw [charsOf] at h
    split at h
    next i rest hi hrest =>
      cases h
      obtain ⟨d, hd, hexec⟩ := exists_digit_of_decodeChar hi
      obtain ⟨v, hv, hrun⟩ := ih hrest (takeNibble d s)
      exact ⟨v, by rw [decodeFrom, hd]; exact hv, by rw [runAll, hexec]; exact hrun⟩
    next => cases h

/-- Settles O34: running the characters gives the decoded value of each string, which the step takes. -/
theorem decodeStepsRunTheirCharacters : Obligations.DecodeStepsRunTheirCharacters := by
  refine ⟨fun s chars hr hp hchars => ?_, fun s first last hr hp hfirst hlast => ?_⟩
  · obtain ⟨v, hv, hrun⟩ := runAll_of_charsOf hchars { s with acc := 0 }
    refine ⟨_, hrun, ?_⟩
    rw [step_of_noReset hr, microStep_blockDecode hp, blockDecode_eq, decodeHex_of_length (by simp), hv]
  · obtain ⟨high, hhigh, hrunFirst⟩ := runAll_of_charsOf hfirst { s with acc := 0 }
    obtain ⟨low, hlow, hrunLast⟩ := runAll_of_charsOf hlast { s with keyHigh := high, acc := 0 }
    have hkey : decodeKey s.keyR.toList = some (high, low) := by
      rw [decodeKey_of_length (by simp), keyHighText, keyLowText, hhigh, hlow]
      rfl
    refine ⟨_, _, hrunFirst, hrunLast, ?_⟩
    rw [step_of_noReset hr, microStep_keyDecode hp, keyDecode_eq, hkey]

/-! ### What a step does not depend on -/

/-- What holds of all the host drives, now and later, holds of it after the step too (log 1). -/
theorem forall_ports_endStep {P : Ports → Prop} {s : State} (hports : P s.ports) (hscript : ∀ p ∈ s.script, P p) :
    P (endStep s).ports ∧ ∀ p ∈ (endStep s).script, P p := by
  cases hs : s.script with
  | nil => simpa [hs, nextPorts] using hports
  | cons p rest => simpa [hs, nextPorts] using hscript

/-- With no request to come a run changes only what the host drives and the draw number (R216). -/
theorem runFor_hold (k : Nat) {s : State} (hp : s.phase.accepting = true)
    (hports : s.ports.start = false ∧ s.ports.rst = false)
    (hscript : ∀ p ∈ s.script, p.start = false ∧ p.rst = false) :
    ∃ ports script draw, runFor k s = .next { s with ports := ports, script := script, draw := draw } := by
  induction k generalizing s with
  | zero => exact ⟨_, _, _, runFor_zero s⟩
  | succ k ih =>
    have hstep : step s = .next (endStep s) := by
      rw [step_of_noReset hports.2, microStep_hold hp hports.1]
    obtain ⟨hports', hscript'⟩ :=
      forall_ports_endStep (P := fun p => p.start = false ∧ p.rst = false) hports hscript
    obtain ⟨ports, script, draw, hrun⟩ := ih (s := endStep s) hp hports' hscript'
    exact ⟨ports, script, draw, (runFor_of_step hstep k).trans hrun⟩

/-- Settles O38: such a run ends with every register as it was. -/
theorem holdForAnyNumberOfSteps : Obligations.HoldForAnyNumberOfSteps := by
  intro k s hp hs hr hscript
  obtain ⟨ports, script, draw, hrun⟩ := runFor_hold k hp ⟨hs, hr⟩ hscript
  exact ⟨_, hrun, rfl⟩

/-- The state with another host. -/
def withHost (ports : Ports) (script : List Ports) (s : State) : State := { s with ports := ports, script := script }

/-- Writing a subkey touches nothing of the host's (R65). -/
theorem writeSubkey_withHost (ports : Ports) (script : List Ports) (i : Counter) (v : Word32) (s : State) :
    writeSubkey i v (withHost ports script s) = withHost ports script (writeSubkey i v s) := by
  unfold writeSubkey
  rw [apply_dite (withHost ports script)]
  rfl

/-- From a busy phase the micro-step with another host is the micro-step, with that host (R202, R217). -/
theorem microStep_withHost (ports : Ports) (script : List Ports) {s : State} (hbusy : s.phase.accepting = false) :
    microStep (withHost ports script s) = withHost ports script (microStep s) := by
  have hphase : (withHost ports script s).phase = s.phase := rfl
  cases hp : s.phase <;> rw [hp] at hphase
  case idle | encoded | failed => simp [hp, Phase.accepting] at hbusy
  case keyDecode =>
    rw [microStep_keyDecode hp, microStep_keyDecode hphase, keyDecode_eq, keyDecode_eq]
    simp only [withHost]
    cases decodeKey s.keyR.toList <;> rfl
  case blockDecode =>
    rw [microStep_blockDecode hp, microStep_blockDecode hphase, blockDecode_eq, blockDecode_eq]
    simp only [withHost]
    cases decodeHex s.blkR.toList <;> rfl
  case keySeed => rw [microStep_keySeed hp, microStep_keySeed hphase]; rfl
  case keyExpand =>
    rw [microStep_keyExpand hp, microStep_keyExpand hphase]
    simp only [keyExpand, writeSubkey_withHost]
    rfl
  case split => rw [microStep_split hp, microStep_split hphase, apply_ite (withHost ports script)]; rfl
  case round => rw [microStep_round hp, microStep_round hphase, apply_ite (withHost ports script)]; rfl
  case reassemble => rw [microStep_reassemble hp, microStep_reassemble hphase]; rfl
  case encode => rw [microStep_encode hp, microStep_encode hphase]; rfl

/-- Settles O40: with another host the micro-step leaves the same registers, and the end of the step moves none. -/
theorem inputsAreIgnoredWhileBusy : Obligations.InputsAreIgnoredWhileBusy := by
  intro s p script hbusy hr hr'
  have hother : step (withHost p script s) = .next (endStep (withHost p script (microStep s))) := by
    rw [step_of_noReset hr', microStep_withHost p script (by simpa [State.busy] using hbusy)]
  exact ⟨_, _, step_of_noReset hr, hother, rfl⟩

end Sys2Proof.Machine
end

section
/-! SUPPORT. Whole transactions by their number of steps (44_interface_sequencer.md R218): 91 to a result, 2 to an
invalid key, 44 to an invalid block. -/

namespace Sys2Proof.Machine

/-! ### On the way -/

/-- A requested transaction with a valid key after its first `k` steps; the block matters from step 44 on (R218). -/
theorem runFor_requested {s : State} (h : Requested s) (hkey : ValidKey s.ports.keyIn.toList) {k : Nat} (hk : 1 ≤ k)
    (hk' : k ≤ 91) (hblock : 43 < k → ValidBlock s.ports.blockIn.toList) :
    ∃ t, runFor k s = .next t ∧ InTransaction s.ports t ∧ stepsLeft t + k = 91 := by
  obtain ⟨u, hstep, hu, hleft⟩ := inTransaction_of_requested h
  obtain ⟨k, rfl⟩ := Nat.exists_eq_add_of_le' hk
  obtain ⟨t, hrun, ht, hend⟩ := runFor_inTransaction hkey k hu (by omega) fun hlt => hblock (by omega)
  exact ⟨t, (runFor_of_step hstep k).trans hrun, ht, by omega⟩

/-- While steps are left a transaction shows `busy = 1` and `done = 0` (R31, R32). -/
theorem InTransaction.busy_not_done {p : Ports} {t : State} (h : InTransaction p t) (hleft : 0 < stepsLeft t) :
    t.busy = true ∧ t.done = false := by
  have hbusy := h.busy hleft
  refine ⟨by simp [State.busy, hbusy], Bool.eq_false_iff.mpr fun hdone => ?_⟩
  have haccepting := (accepting_iff t.phase).mpr (.inr (h.flags.1.mp hdone))
  simp [hbusy] at haccepting

/-- A run of one step more, by the state before its last step. -/
theorem runFor_succ_of_runFor {k : Nat} {s t : State} (h : runFor k s = .next t) : runFor (k + 1) s = step t := by
  induction k generalizing s with
  | zero => cases h; rw [runFor_succ, runFor_zero, step_eq]
  | succ k ih =>
    rw [runFor_succ] at h ⊢
    exact ih h

/-- A run that takes no ENCODE step leaves `block_out` as it is (R33). -/
theorem runFor_blockOut {k : Nat} {s t : State} (hrun : runFor k s = .next t)
    (h : ∀ j < k, ∃ u, runFor j s = .next u ∧ u.ports.rst = false ∧ u.phase ≠ .encode) :
    t.blockOut = s.blockOut := by
  induction k generalizing t with
  | zero => cases hrun; rfl
  | succ k ih =>
    obtain ⟨u, hu, hr, hp⟩ := h k (by omega)
    have hkept : u.blockOut = s.blockOut := ih hu fun j hj => h j (by omega)
    have hstep : step u = .next t := (runFor_succ_of_runFor hu).symm.trans hrun
    obtain ⟨-, -, -, -, -, -, -, -, -, -, -, hencode, -⟩ := registersAreWrittenByTheirStepsOnly u t hr hstep
    exact (not_not.mp (mt hencode hp)).trans hkept

/-! ### With a result -/

/-- Settles O46: a command with a result has valid strings, and at no step before the last is no step left. -/
theorem successfulTransactionTakes91Steps : Obligations.SuccessfulTransactionTakes91Steps := by
  intro s R h hR
  obtain ⟨hblock, hkey⟩ : ValidBlock s.ports.blockIn.toList ∧ ValidKey s.ports.keyIn.toList :=
    by_contra fun hbad => by simp [commandText_of_not_valid _ hbad] at hR
  refine ⟨?_, fun k hk hk' => ?_⟩
  · obtain ⟨t, hrun, ht, hp⟩ := runFor_91_of_valid h hblock hkey
    obtain ⟨hdone, herr⟩ := ht.flags
    have hresult := ht.coherent
    simp only [Coherent, hp, ht.opR, ht.blkR, ht.keyR, hR, Option.some_inj] at hresult
    exact ⟨t, hrun, hp, hdone.mpr (.inl hp), by simpa [hp] using herr, hresult.symm⟩
  · obtain ⟨t, hrun, ht, hleft⟩ := runFor_requested h hkey hk (by omega) fun _ => hblock
    exact ⟨t, hrun, ht.busy_not_done (by omega)⟩

/-! ### With an invalid string -/

/-- KEY_DECODE of an invalid key is `InvalidInput` (R207, R245). -/
theorem step_of_badKey {s : State} (hr : s.ports.rst = false) (hp : s.phase = .keyDecode)
    (hbad : ¬ ValidKey s.keyR.toList) : step s = .next (endStep (raiseInvalidInput s)) := by
  rw [step_of_noReset hr, microStep_keyDecode hp, keyDecode_eq, decodeKey_of_not_valid hbad]

/-- BLOCK_DECODE of an invalid block is `InvalidInput` (R210, R245). -/
theorem step_of_badBlock {s : State} (hr : s.ports.rst = false) (hp : s.phase = .blockDecode)
    (hbad : ¬ ValidBlock s.blkR.toList) : step s = .next (endStep (raiseInvalidInput s)) := by
  rw [step_of_noReset hr, microStep_blockDecode hp, blockDecode_eq, decodeHex_of_not_valid hbad]

/-- Settles O47: ACCEPT, and then KEY_DECODE of the invalid key. -/
theorem badKeyFailsAfter2Steps : Obligations.BadKeyFailsAfter2Steps := by
  intro s h hbad
  obtain ⟨haccepting, hstart, hreset⟩ := h
  have hrun := runFor_of_step (step_accept hreset.1 haccepting hstart) 0
  obtain ⟨hr, -⟩ := noReset_endStep (s := accept s.ports.op s.ports.blockIn s.ports.keyIn s) hreset
  have hfail := step_of_badKey hr rfl hbad
  have hrun' := (runFor_succ_of_runFor hrun).trans hfail
  refine ⟨⟨_, hrun', ?_⟩, _, hrun, ?_⟩
  · simp
  · simp [State.busy, Phase.accepting]

/-- The 48th step from the end is BLOCK_DECODE (R218). -/
theorem phase_of_stepsLeft_eq_48 {s : State} (hc : Coherent s) (hleft : stepsLeft s = 48) :
    s.phase = .blockDecode := by
  cases hp : s.phase
  case blockDecode => rfl
  case keyExpand | round =>
    have hhigh := n_le_of_coherent hc (by simp [hp])
    simp only [stepsLeft, hp] at hleft
    omega
  all_goals simp [stepsLeft, hp] at hleft

/-- Settles O48: 43 steps lead to BLOCK_DECODE, none of them ENCODE, and the next fails. -/
theorem badBlockFailsAfter44Steps : Obligations.BadBlockFailsAfter44Steps := by
  intro s h hkey hbad
  have way {k : Nat} (hk : 1 ≤ k) (hk' : k ≤ 43) := runFor_requested h hkey hk (by omega) fun hlt => by omega
  refine ⟨?_, fun k hk hk' => ?_⟩
  · obtain ⟨t, hrun, ht, hleft⟩ := way (k := 43) (by omega) (by omega)
    have hfail := step_of_badBlock ht.noReset.1 (phase_of_stepsLeft_eq_48 ht.coherent (by omega))
      (by rwa [ht.blkR])
    have hkept : t.blockOut = s.blockOut := runFor_blockOut hrun fun j hj => by
      obtain rfl | hj' := Nat.eq_zero_or_pos j
      · obtain ⟨haccepting, -, hreset⟩ := h
        exact ⟨s, runFor_zero s, hreset.1, fun hp => by simp [hp, Phase.accepting] at haccepting⟩
      · obtain ⟨u, hu, hway, hleft⟩ := way hj' (by omega)
        exact ⟨u, hu, hway.noReset.1, fun hp => by simp only [stepsLeft, hp] at hleft; omega⟩
    exact ⟨_, (runFor_succ_of_runFor hrun).trans hfail, rfl, rfl, rfl, hkept⟩
  · obtain ⟨t, hrun, ht, hleft⟩ := way hk hk'
    exact ⟨t, hrun, ht.busy_not_done (by omega)⟩

end Sys2Proof.Machine
end

section
/-! SUPPORT. The exception (60_exceptions.md R243, R245): which steps enter FAILED, with what effect, and what `exec`
does with strings no port can carry (R241, log 9). -/

namespace Sys2Proof.Machine

/-! ### The steps that enter FAILED -/

/-- A string of the right length is invalid exactly when one of its characters is (R137). -/
theorem not_validHex_iff {s : Text} {len : Nat} (h : s.length = len) :
    ¬ validHex s len = true ↔ ∃ c ∈ s, validChar c = false := by
  simp [validHex, h]

/-- The key decode fails exactly on an invalid character (R151). -/
theorem decodeKey_eq_none_iff (key : HexKey) :
    decodeKey key.toList = none ↔ ∃ c ∈ key.toList, validChar c = false := by
  rw [← Option.not_isSome_iff_eq_none, decodeKey_isSome (by simp), not_validHex_iff (by simp)]

/-- The block decode fails exactly on an invalid character (R132). -/
theorem decodeHex_eq_none_iff (block : HexBlock) :
    decodeHex block.toList = none ↔ ∃ c ∈ block.toList, validChar c = false := by
  rw [← Option.not_isSome_iff_eq_none, decodeHex_isSome, not_validHex_iff (by simp)]

/-- The rules that enter FAILED from another phase are the two failing decodes (R243). -/
theorem rule_enters_failed_iff {s u : State} (hu : Rule s u) :
    (s.phase ≠ .failed ∧ u.phase = .failed) ↔
      (s.phase = .keyDecode ∧ decodeKey s.keyR.toList = none) ∨
      (s.phase = .blockDecode ∧ decodeHex s.blkR.toList = none) := by
  cases hu with
  | badKey hp h | badBlock hp h | keyDecode hp h | blockDecode hp h => simp [hp, h]
  | hold hp | accept hp => obtain hp | hp | hp := (accepting_iff _).mp hp <;> simp [hp]
  | keyExpand hp | round hp => dsimp only; split <;> simp [hp]
  | keySeed hp | split hp | reassemble hp | encode hp => simp [hp]

/-- A rule that enters FAILED from another phase is the exception and nothing else (R245). -/
theorem eq_raiseInvalidInput_of_rule {s u : State} (hu : Rule s u) (hs : s.phase ≠ .failed)
    (hf : u.phase = .failed) : u = raiseInvalidInput s := by
  cases hu with
  | badKey | badBlock => rfl
  | hold => exact absurd hf hs
  | keyExpand | round => dsimp only at hf; split at hf <;> cases hf
  | accept | keyDecode | keySeed | blockDecode | split | reassemble | encode => cases hf

/-- Settles O42: the step is a rule and the end of the step, which moves no register; the decodes that fail are
those of a string with an invalid character. -/
theorem onlyTheDecodeStepsFail : Obligations.OnlyTheDecodeStepsFail := by
  intro s t hr h
  obtain ⟨u, hu, rfl⟩ := rule_of_step hr h
  rw [endStep_phase, ← decodeKey_eq_none_iff, ← decodeHex_eq_none_iff]
  exact ⟨rule_enters_failed_iff hu, fun hs hf => congrArg endStep (eq_raiseInvalidInput_of_rule hu hs hf)⟩

/-! ### Strings of the wrong length -/

/-- In an accepting phase the micro-step of a command is its ACCEPT (R205, R206). -/
theorem commandStep_of_accepting (op : BitVec 1) (split round : State → State) (block key : Text) {s : State}
    (h : s.phase.accepting = true) : commandStep op split round block key s = acceptCommand op block key s := by
  obtain hp | hp | hp := (accepting_iff _).mp h <;> simp only [commandStep, hp]

/-- ACCEPT of strings no port can carry is the exception (R241; the model's choice, log 9). -/
theorem acceptCommand_of_length_ne (op : BitVec 1) {block key : Text} (h : block.length ≠ 16 ∨ key.length ≠ 32)
    (s : State) : acceptCommand op block key s = raiseInvalidInput s := by
  obtain hblock | hkey := h
  · simp [acceptCommand, toHexBlock, hblock]
  · simp [acceptCommand, toHexKey, hkey]

/-- Settles O23: both commands run their ACCEPT, which refuses the strings. -/
theorem wrongLengthIsInvalidInput : Obligations.WrongLengthIsInvalidInput := by
  intro block key s hp hlen i hi
  refine exec_shared hi fun op split round => ?_
  exact (commandStep_of_accepting op split round block key ((accepting_iff _).mpr hp)).trans
    (acceptCommand_of_length_ne op hlen s)

end Sys2Proof.Machine
end

section
/-! SUPPORT. The reset step (70_reset_and_hazards.md R270): it reads nothing of the state but `rst`, the free values'
draw and what the host plans for the ports. -/

namespace Sys2Proof.Machine

/-- With `rst = 1` a step is the reset of the registers and then the end of the step (R270). -/
theorem step_of_reset {s : State} (h : s.ports.rst = true) : step s = .next (endStep (resetRegisters s)) := by
  rw [step_eq, if_pos h]

/-- CORE is not busy after the reset of the registers: IDLE accepts (R202, R270). -/
@[simp] theorem resetRegisters_busy (s : State) : (resetRegisters s).busy = false := by
  simp [State.busy, Phase.accepting]

/-- Settles O37: the step is the reset of the registers, which sets each of them as R270 says (the free values of log 4,
the accumulator of log 5), and the end of the step, which moves none. -/
theorem resetStep : Obligations.ResetStep := by
  intro s hr
  exact ⟨endStep (resetRegisters s), step_of_reset hr, endStep_phase _, endStep_done _, endStep_err _,
    resetRegisters_busy s, rfl⟩

end Sys2Proof.Machine
end
